-- ==== Sys2Proof/Config.lean ====
section
/-! DEFINITION. What an implementation of CRCANY8 fixes (00_scope R7): the register width, which the spec sets, and the
command latencies, which it leaves OPEN. -/

namespace Sys2Proof.Config

/-- W, the register width in bits and the largest legal `width` operand (00_scope R6, R7). -/
def registerWidth : Nat := 8

/-- The six latency parameters that the spec leaves OPEN (00_scope R7, 70_reset_and_hazards R115). -/
inductive Latency where
  | create
  | createT
  | tload
  | digest
  | reset
  | getCrc
  deriving DecidableEq, Repr

/-- How many cycles beyond the first a command takes: OPEN, so nothing in Lean can say its value (log entry 6). -/
opaque cyclesBeyondFirst : Latency → Nat

/-- LAT_CREATE .. LAT_GETCRC: a finite number of cycles, at least 1, from the command's transfer to rsp_valid
(70_reset_and_hazards R115). No rule depends on it and no step reads it: the model carries no time (log entry 6). -/
def cycles (l : Latency) : Nat := cyclesBeyondFirst l + 1

end Sys2Proof.Config
end

