-- ==== Sys2Proof/Word.lean ====
section
/-! DEFINITION. The words of CRCANY8: an 8-bit register value (00_scope R6, R8), a 32-bit command or response word
(30_encoding R50, R59), and an array of 256 entries (20_memory R35, R36). -/

namespace Sys2Proof

/-- An 8-bit unsigned value, the width of every register the source calls a register (00_scope R6). -/
abbrev Byte := BitVec 8

/-- A 32-bit command or response word (30_encoding R50, R59); bit 0 is the least significant (20_memory R40). -/
abbrev Word := BitVec 32

/-- 256 entries, index 0..255: the shape of LUT, STAGE and STAGE_LOADED (20_memory R35, R36). -/
abbrev Indexed (α : Type) := Vector α 256

end Sys2Proof
end

