-- ==== Sys2Proof/Machine/State.lean ====
section
/-! DEFINITION. The state of one CRCANY8 instance and of the host that drives it: the registers S1 to S13 (10_state
R17), the response that waits on the response port (70_reset_and_hazards R113), the host's moves still to come and the
responses it has accepted (60_exceptions R108, 70_reset_and_hazards R116). -/

namespace Sys2Proof.Machine

/-- One thing the host does at the ports (60_exceptions R108). The host makes its moves in order, and each one is over
when the port event it waits for has happened (70_reset_and_hazards R113). -/
inductive HostMove where
  /-- Hold cmd_valid = 1 with this word on cmd_data until the command transfers. -/
  | issue (w : Word)
  /-- Hold rsp_ready = 1 until a response transfers. -/
  | accept
  /-- Neither present a command nor accept a response for now. -/
  | pause
  /-- Hold rst_n = 0 until the block is reset (70_reset_and_hazards R109). -/
  | powerOnReset
  deriving DecidableEq, Repr

/-- The engine, its response port and its host. -/
structure State where
  /-- S1 CFG_VALID: an engine has been built since power-on reset (10_state R18). -/
  cfgValid : Bool
  /-- S2 WIDTH: the number of significant bits, 1..8 (10_state R19). -/
  width : BitVec 4
  /-- S3 REFLECT (10_state R20). -/
  reflect : Bool
  /-- S4 BY_TABLE (10_state R21). -/
  byTable : Bool
  /-- S5 POLY: what the bitwise loop XORs into SUM (10_state R22). -/
  poly : Byte
  /-- S6 INITIAL: the caller's seed, not reflected (10_state R23). -/
  initial : Byte
  /-- S7 FINAL_XOR (10_state R24). -/
  finalXor : Byte
  /-- S8 HIGH_BIT: one-hot, bit WIDTH-1 (10_state R25). -/
  highBit : Byte
  /-- S9 MASK: the low WIDTH bits (10_state R26). -/
  mask : Byte
  /-- S10 SUM: the running sum, all 8 bits (10_state R27, R28). -/
  sum : Byte
  /-- S11 LUT (10_state R30, 20_memory R35). -/
  lut : Indexed Byte
  /-- S12 STAGE (10_state R31, 20_memory R36). -/
  stage : Indexed Byte
  /-- S13 STAGE_LOADED (10_state R31, 20_memory R36). -/
  stageLoaded : Indexed Bool
  /-- The response that waits to be accepted: present exactly while the engine holds rsp_valid = 1, and then what
  rsp_data shows (70_reset_and_hazards R112, R113). -/
  response : Option Word
  /-- The host's moves still to come, in order: the program is the command words among them (10_state R15). The
  MODEL's field: the host's own state (log entry 3). -/
  plan : List HostMove
  /-- The responses the host has accepted since the last power-on reset, oldest first: the observation of the run
  (70_reset_and_hazards R116). The MODEL's field: the host's own state (log entry 4). -/
  observed : List Word
  deriving DecidableEq, Repr

/-- Why the machine would stop with a fault. Nothing stops this block: a command that raises an error answers with an
error response and completes (60_exceptions R97), so no reason exists and no step answers a fault. -/
inductive Fault where
  deriving DecidableEq, Repr

/-- Why a step would have no meaning. -/
inductive Refusal where
  /-- An instruction without a meaning yet: raised by an arm of `exec` alone. No arm raises it any more. Safe: the run
  stops where the hardware goes on. -/
  | notModelled (mnemonic : String)
  deriving DecidableEq, Repr

/-- The machine right after power-on reset (10_state R33, 70_reset_and_hazards R109): CFG_VALID = 0, every STAGE_LOADED
bit 0, no response. S2 to S12 are unspecified there and unreadable until written.
DESIGN CHOICE (log entries 1 and 2, unsafe): each holds a legal value of R17, WIDTH = 1 with the HIGH_BIT and MASK that
R25 and R26 give it, and 0 in every other one. The host has made no plan and accepted nothing (log entries 3 and 4). -/
def State.reset : State where
  cfgValid := false
  width := 1
  reflect := false
  byTable := false
  poly := 0
  initial := 0
  finalXor := 0
  highBit := 0x01
  mask := 0x01
  sum := 0
  lut := Vector.replicate 256 0
  stage := Vector.replicate 256 0
  stageLoaded := Vector.replicate 256 false
  response := none
  plan := []
  observed := []

end Sys2Proof.Machine
end

