-- ==== Sys2Proof/Machine/Flags.lean ====
section
/-! DEFINITION. The mode flags (10_state R29): BY_TABLE from the width (R21), and the data path that BY_TABLE and
REFLECT select (42_digest_engine R82). No command sets a flag as a side effect of computation: there is no carry, zero,
overflow or condition flag. -/

namespace Sys2Proof.Machine

/-- `by_table` is true iff `width % 8 == 0` (10_state R21), for a width that passed the width check. -/
def byTableOf (width : BitVec 4) : Bool := width.toNat % Config.registerWidth == 0

/-- The three data paths of DIGEST (42_digest_engine R83, R84, R85). -/
inductive DigestPath where
  | table
  | bitwiseNormal
  | bitwiseReflected
  deriving DecidableEq, Repr

/-- The path that the flags select (42_digest_engine R82). -/
def digestPath (byTable reflect : Bool) : DigestPath :=
  if byTable then .table else if reflect then .bitwiseReflected else .bitwiseNormal

end Sys2Proof.Machine
end

