-- ==== Sys2Proof/Machine/Operands.lean ====
section
/-! DEFINITION. What the Parameter Normalizer computes from operands (40_normalizer R62 to R70): reflection, the legal
widths, HIGH_BIT, MASK, the starting sum and the bitwise polynomial. -/

namespace Sys2Proof.Machine

/-- The while loop of `reflect_bits` (40_normalizer R62), `rounds` bounding its length: `i` walks down from the high
bit, `j` up from bit 0. -/
def reflectLoop (n : Byte) : Nat → Byte → Byte → Byte → Byte
  | 0, _, _, out => out
  | rounds + 1, i, j, out =>
    if i = 0 then out
    else reflectLoop n rounds (i >>> 1) (j <<< 1) (if n &&& i ≠ 0 then out ||| j else out)

/-- `reflect_bits(h, n)`: mirrors the low log2(h)+1 bits of n (40_normalizer R62). `i` starts as a byte and is halved
each round, so 8 rounds end the loop. One function for its three call sites (R63). -/
def reflectBits (h n : Byte) : Byte := reflectLoop n 8 h 1 0

/-- The width check `1 <= width <= W` (40_normalizer R70). -/
def widthLegal (width : BitVec 4) : Bool := 1 ≤ width.toNat && width.toNat ≤ Config.registerWidth

/-- `high_bit = 1 << (width-1)` in 8 bits, taken after the width check (40_normalizer R66). -/
def highBitOf (width : BitVec 4) : Byte := 1 <<< (width.toNat - 1)

/-- `mask = ((high_bit-1)<<1) | 1` in 8 bits (40_normalizer R66). -/
def maskOf (highBit : Byte) : Byte := ((highBit - 1) <<< 1) ||| 1

/-- `sum0`, the starting sum: the initial value, reflected when `reflect` is set, on every path (40_normalizer R67,
90_conflicts C1). -/
def startingSum (reflect : Bool) (highBit initial : Byte) : Byte :=
  if reflect then reflectBits highBit initial else initial

/-- POLY of the bitwise path: the operand, reflected once when `reflect` is set (40_normalizer R68). -/
def bitwisePoly (reflect : Bool) (highBit polynomial : Byte) : Byte :=
  if reflect then reflectBits highBit polynomial else polynomial

/-- The input byte as the bitwise loop consumes it: mirrored over all 8 bits at every width when `reflect` is set
(42_digest_engine R84, R85). -/
def bitwiseByte (reflect : Bool) (byte : Byte) : Byte := if reflect then reflectBits 0x80 byte else byte

end Sys2Proof.Machine
end

