-- ==== Sys2Proof/Machine/Ops.lean ====
section
/-! DEFINITION. The named operations on the state: the indexed arrays (20_memory R35, R36), sending a response and
raising an error (30_encoding R59, 60_exceptions R95, R97), power-on reset (70_reset_and_hazards R109), and the ports as
they read off the state (70_reset_and_hazards R112, R113).
There is no return from an error and no handler (60_exceptions R98). -/

namespace Sys2Proof.Machine

/-- Entry `i` of an indexed array; every 8-bit index is valid (20_memory R35). -/
def entry {α : Type} (t : Indexed α) (i : Byte) : α := t[i.toNat]'(by have := i.isLt; omega)

/-- The array with entry `i` replaced. -/
def setEntry {α : Type} (t : Indexed α) (i : Byte) (v : α) : Indexed α :=
  t.set i.toNat v (by have := i.isLt; omega)

/-- The array whose entry `i` is `f i`. -/
def tabulate {α : Type} (f : Byte → α) : Indexed α := Vector.ofFn fun k : Fin 256 => f (BitVec.ofNat 8 k.val)

/-- `TableRead(i)`: entry `i` of LUT (20_memory R35). -/
def State.tableRead (s : State) (i : Byte) : Byte := entry s.lut i

/-- `StageWrite(i, v)`: STAGE[i] and its loaded bit (20_memory R36). -/
def State.stageWrite (i v : Byte) (s : State) : State :=
  { s with stage := setEntry s.stage i v, stageLoaded := setEntry s.stageLoaded i true }

/-- Every STAGE_LOADED bit is 1 (40_normalizer R72). -/
def State.stageComplete (s : State) : Bool := s.stageLoaded.toList.all id

/-- Normalization steps 1 and 2 with the operands stored (40_normalizer R66, R67, R71): WIDTH, REFLECT, INITIAL,
FINAL_XOR, HIGH_BIT, MASK and SUM. -/
def State.normalize (reflect : Bool) (width : BitVec 4) (initial finalXor : Byte) (s : State) : State :=
  { s with
    width := width
    reflect := reflect
    initial := initial
    finalXor := finalXor
    highBit := highBitOf width
    mask := maskOf (highBitOf width)
    sum := startingSum reflect (highBitOf width) initial }

/-- Step 4: the whole table into LUT, BY_TABLE = 1, POLY = 0 (40_normalizer R69, 10_state R22). -/
def State.installTable (t : Indexed Byte) (s : State) : State := { s with lut := t, byTable := true, poly := 0 }

/-- Step 3: POLY of the bitwise path, BY_TABLE = 0; LUT is left alone (40_normalizer R68, 10_state R30). -/
def State.installPoly (p : Byte) (s : State) : State := { s with byTable := false, poly := p }

/-- An engine exists: CFG_VALID = 1 (10_state R18). -/
def State.configure (s : State) : State := { s with cfgValid := true }

/-- SUM takes a value (10_state R27). -/
def State.setSum (v : Byte) (s : State) : State := { s with sum := v }

/-- `sum0(st)`, the starting sum of the engine that the state holds (10_state R23). -/
def State.sum0 (s : State) : Byte := startingSum s.reflect s.highBit s.initial

/-- The engine presents a response: it waits until the host accepts it (70_reset_and_hazards R113). -/
def State.present (r : Word) (s : State) : State := { s with response := some r }

/-- The response word of a command that succeeded (30_encoding R59): ERR and CODE 0, DATA in bits [7:0]. -/
def successWord (data : Byte) : Word := data.zeroExtend 32

/-- The errors a command can raise (60_exceptions R95). -/
inductive ErrorCause where
  /-- OP 0b000 or 0b111, or a reserved field is nonzero. -/
  | illegalCommand
  /-- CREATE with WD outside 1..8, CREATE_T with WD other than 8. -/
  | invalidWidth
  /-- DIGEST, RESET or GET_CRC while CFG_VALID = 0. -/
  | notConfigured
  /-- CREATE_T while some STAGE_LOADED bit is 0. -/
  | tableIncomplete
  deriving DecidableEq, Repr

/-- CODE of an error (60_exceptions R95); 0 is no error and 5..15 are never produced. -/
def errorCode : ErrorCause → BitVec 4
  | .illegalCommand => 1
  | .invalidWidth => 2
  | .notConfigured => 3
  | .tableIncomplete => 4

/-- The response word of an error: `0x80000000 | (code << 8)` (30_encoding R59). -/
def errorWord (e : ErrorCause) : Word := 0x80000000 ||| ((errorCode e).zeroExtend 32 <<< 8)

/-- `respond(v)`: the command completes with this response word (30_encoding R59). -/
def respond (r : Word) (s : State) : Host.Outcome State Fault Refusal := .next (s.present r)

/-- `raise E`, the one way a command ends in an error (60_exceptions R97): no register is written, the error response
is sent, the command completes. -/
def raise (e : ErrorCause) (s : State) : Host.Outcome State Fault Refusal := respond (errorWord e) s

/-- Power-on reset (70_reset_and_hazards R109): every register at its value of 10_state R33, a response not yet
accepted discarded. The host keeps its plan, and a new run begins, with nothing observed yet (R116, log entry 4). -/
def State.powerOn (s : State) : State := { State.reset with plan := s.plan }

/-- The host goes on to the moves `ms`. -/
def State.planned (ms : List HostMove) (s : State) : State := { s with plan := ms }

/-- The host has accepted the response `r`: the engine is idle again (70_reset_and_hazards R113), and the host adds `r`
to what it has observed (R116). -/
def State.accepted (r : Word) (s : State) : State := { s with response := none, observed := s.observed ++ [r] }

/-- Port rst_n (70_reset_and_hazards R112): low while the host asserts power-on reset. -/
def State.rstN (s : State) : Bool := s.plan.head? != some .powerOnReset

/-- Port cmd_valid with cmd_data (70_reset_and_hazards R112): the word the host presents, none when cmd_valid = 0. -/
def State.command (s : State) : Option Word :=
  match s.plan with
  | .issue w :: _ => some w
  | _ => none

/-- Port cmd_valid (70_reset_and_hazards R112). -/
def State.cmdValid (s : State) : Bool := s.command.isSome

/-- Port cmd_ready (70_reset_and_hazards R109, R113): 1 when the engine is idle, that is no response waits; 0 during
reset. DEDUCED (log entry 8): it is 1 whenever the engine is idle. -/
def State.cmdReady (s : State) : Bool := s.rstN && s.response.isNone

/-- Port rsp_valid (70_reset_and_hazards R109, R113): a response waits; 0 during reset. -/
def State.rspValid (s : State) : Bool := s.rstN && s.response.isSome

/-- Port rsp_ready (70_reset_and_hazards R112). -/
def State.rspReady (s : State) : Bool := s.plan.head? == some .accept

/-- The moves of a host that runs a program, accepting each response before the next command (70_reset_and_hazards
R113). -/
def programMoves (ws : List Word) : List HostMove := ws.flatMap fun w => [.issue w, .accept]

end Sys2Proof.Machine
end

