-- ==== Sys2Proof/Machine/Synthesizer.lean ====
section
/-! DEFINITION. The Table Synthesizer (41_table_synthesizer R74 to R77): the two construction algorithms, kept separate
as R74 asks. -/

namespace Sys2Proof.Machine

/-- One shift of the normal table (41_table_synthesizer R75): the bit leaving the top decides the XOR. -/
def normalShift (p v : Byte) : Byte := if v.getLsbD 7 then (v <<< 1) ^^^ p else v <<< 1

/-- One shift of the reflected table (41_table_synthesizer R76): shift first, then XOR. -/
def reflectedShift (p v : Byte) : Byte := if v.getLsbD 0 then (v >>> 1) ^^^ p else v >>> 1

/-- `rounds` rounds of one shift. -/
def shiftRounds (shift : Byte → Byte) : Nat → Byte → Byte
  | 0, v => v
  | rounds + 1, v => shiftRounds shift rounds (shift v)

/-- `build_table_normal(p)` (41_table_synthesizer R75); the final mask to the register width keeps all 8 bits. -/
def buildTableNormal (p : Byte) : Indexed Byte := tabulate fun i => shiftRounds (normalShift p) 8 i &&& 0xFF

/-- `build_table_reflected(p)` (41_table_synthesizer R76); stored directly, without a mask. -/
def buildTableReflected (p : Byte) : Indexed Byte := tabulate fun i => shiftRounds (reflectedShift p) 8 i

/-- `build_table(p, reflected)`, a pure function of its operands (41_table_synthesizer R77); P is passed unchanged
(40_normalizer R69). -/
def buildTable (p : Byte) (reflected : Bool) : Indexed Byte :=
  if reflected then buildTableReflected p else buildTableNormal p

end Sys2Proof.Machine
end

