-- ==== Sys2Proof/Machine/Construct.lean ====
section
/-! DEFINITION. The construction commands: CREATE, CREATE_T and TLOAD (40_normalizer R71, R72, R73). -/

namespace Sys2Proof.Machine

/-- CREATE (40_normalizer R71): the width check, steps 1 and 2, then the table at width 8 (R69) or the bitwise
polynomial below it (R68). STAGE and STAGE_LOADED are not touched. -/
def execCreate (reflect : Bool) (width : BitVec 4) (polynomial initial finalXor : Byte) (s : State) :
    Host.Outcome State Fault Refusal :=
  if widthLegal width then
    let n := s.normalize reflect width initial finalXor
    let built :=
      if byTableOf width then n.installTable (buildTable polynomial reflect)
      else n.installPoly (bitwisePoly reflect (highBitOf width) polynomial)
    respond (successWord 0) built.configure
  else raise .invalidWidth s

/-- CREATE_T (40_normalizer R72): InvalidWidth, then TableIncomplete, then the engine of the staged table, copied. -/
def execCreateT (reflect : Bool) (width : BitVec 4) (initial finalXor : Byte) (s : State) :
    Host.Outcome State Fault Refusal :=
  if width.toNat ≠ Config.registerWidth then raise .invalidWidth s
  else if s.stageComplete = false then raise .tableIncomplete s
  else respond (successWord 0) ((s.normalize reflect width initial finalXor).installTable s.stage).configure

/-- TLOAD (40_normalizer R73): one entry of the staged table; legal whether or not an engine exists. -/
def execTload (index value : Byte) (s : State) : Host.Outcome State Fault Refusal :=
  respond (successWord 0) (s.stageWrite index value)

end Sys2Proof.Machine
end

