-- ==== Sys2Proof/Machine/Digest.lean ====
section
/-! DEFINITION. The Digest Engine: DIGEST with its three data paths, RESET and GET_CRC (42_digest_engine R82 to R88). -/

namespace Sys2Proof.Machine

/-- One round of `dg_loop` (42_digest_engine R84): the input bit selected by `i` flips the carry out of bit WIDTH-1,
and a carry XORs POLY into the shifted sum. -/
def digestRound (highBit poly n i sum : Byte) : Byte :=
  let carry := sum &&& highBit
  let shifted := sum <<< 1
  let flipped := if n &&& i ≠ 0 then carry ^^^ highBit else carry
  if flipped ≠ 0 then shifted ^^^ poly else shifted

/-- The while loop of `dg_loop` (42_digest_engine R84), `rounds` bounding its length. -/
def digestLoopFrom (highBit poly n : Byte) : Nat → Byte → Byte → Byte
  | 0, _, sum => sum
  | rounds + 1, i, sum =>
    if i = 0 then sum
    else digestLoopFrom highBit poly n rounds (i >>> 1) (digestRound highBit poly n i sum)

/-- `dg_loop(n)` (42_digest_engine R84): `i` starts at 0x80, so 8 rounds end the loop. -/
def digestLoop (highBit poly n sum : Byte) : Byte := digestLoopFrom highBit poly n 8 0x80 sum

/-- SUM after one byte, on the path that the flags select (42_digest_engine R82 to R85). -/
def State.digestedSum (s : State) (byte : Byte) : Byte :=
  match digestPath s.byTable s.reflect with
  | .table => s.tableRead ((s.sum ^^^ byte) &&& 0xFF)
  | .bitwiseNormal => digestLoop s.highBit s.poly (bitwiseByte false byte) s.sum
  | .bitwiseReflected => digestLoop s.highBit s.poly (bitwiseByte true byte) s.sum

/-- DIGEST (42_digest_engine R82): folds one byte into SUM; no byte is an error. -/
def execDigest (byte : Byte) (s : State) : Host.Outcome State Fault Refusal :=
  if s.cfgValid then respond (successWord 0) (s.setSum (s.digestedSum byte)) else raise .notConfigured s

/-- RESET (42_digest_engine R87): SUM takes the starting sum again, nothing else changes. -/
def execReset (s : State) : Host.Outcome State Fault Refusal :=
  if s.cfgValid then respond (successWord 0) (s.setSum s.sum0) else raise .notConfigured s

/-- The checksum that GET_CRC reads out (42_digest_engine R88): SUM is un-reflected on the bitwise reflected path alone
(90_conflicts C2). -/
def State.checksum (s : State) : Byte :=
  match digestPath s.byTable s.reflect with
  | .bitwiseReflected => (reflectBits s.highBit s.sum ^^^ s.finalXor) &&& s.mask
  | .table => (s.sum ^^^ s.finalXor) &&& s.mask
  | .bitwiseNormal => (s.sum ^^^ s.finalXor) &&& s.mask

/-- GET_CRC (42_digest_engine R88): responds with the checksum and writes no register. -/
def execGetCrc (s : State) : Host.Outcome State Fault Refusal :=
  if s.cfgValid then respond (successWord s.checksum) s else raise .notConfigured s

end Sys2Proof.Machine
end

