-- ==== Sys2Proof/Syntax.lean ====
section
/-! DEFINITION. The commands of CRCANY8, one constructor per row of spec/opcode_table.json (30_encoding R57), each with
the operands that its format gives it (R52 to R56). -/

namespace Sys2Proof

/-- One command word's meaning as syntax. Every field has exactly the width of its field in the word, so no operand
can be out of range: a WD outside the legal set is still a command (30_encoding R56). -/
inductive Instr where
  /-- OP 0b000, reserved (30_encoding R57, R58); `payload` is bits [28:0]. -/
  | reserved000 (payload : BitVec 29)
  /-- CREATE, format C (30_encoding R52): R, WD, P, I, X. -/
  | create (reflect : Bool) (width : BitVec 4) (polynomial initial finalXor : Byte)
  /-- CREATE_T, format C with bits [23:16] zero (30_encoding R52): R, WD, I, X. -/
  | createT (reflect : Bool) (width : BitVec 4) (initial finalXor : Byte)
  /-- TLOAD, format T (30_encoding R53): IDX, VAL. -/
  | tload (index value : Byte)
  /-- DIGEST, format D (30_encoding R54): B. -/
  | digest (byte : Byte)
  /-- RESET, format N (30_encoding R55). -/
  | reset
  /-- GET_CRC, format N (30_encoding R55). -/
  | getCrc
  /-- OP 0b111, reserved (30_encoding R57, R58); `payload` is bits [28:0]. -/
  | reserved111 (payload : BitVec 29)
  deriving DecidableEq, Repr

end Sys2Proof
end

