-- ==== Sys2Proof/WellFormed.lean ====
section
/-! DEFINITION. Well-formedness. A command's fields have the widths of its format, so nothing is left to check of an
`Instr`. The checks of the spec are on what a programmer writes: assembler lines, whose operands are numbers that may
not fit their fields (30_encoding R60, R61). -/

namespace Sys2Proof

/-- Well-formedness of a command: each field's type is its field's width in the word (30_encoding R52 to R55), and a WD
outside the legal set is a valid encoding (R56), so every command is well formed. -/
def Instr.wellFormed : Instr → Bool
  | .reserved000 _ => true
  | .create _ _ _ _ _ => true
  | .createT _ _ _ _ => true
  | .tload _ _ => true
  | .digest _ => true
  | .reset => true
  | .getCrc => true
  | .reserved111 _ => true

/-- One assembler line, its operands the numbers that its decimal or hexadecimal text denotes, in the order of
30_encoding R60; the last four are the pseudo-instructions of R61, with both forms of `DIGESTS`. -/
inductive AsmLine where
  | create (width poly init xorout refl : Nat)
  | createT (width init xorout refl : Nat)
  | tload (index value : Nat)
  | digest (byte : Nat)
  | reset
  | getCrc
  /-- `.word value`: the 32-bit word as given. -/
  | word (value : Nat)
  | digests (bytes : List Nat)
  /-- `DIGESTS "text"`: the ASCII bytes of text. -/
  | digestsText (text : List Char)
  | tloadAll (entries : List Nat)
  | createWithTable (entries : List Nat) (width init xorout refl : Nat)
  deriving DecidableEq, Repr

/-- The number fits a field of `bits` bits. -/
def fits (bits n : Nat) : Bool := n < 2 ^ bits

/-- Every operand fits its field, and a table has exactly 256 entries (30_encoding R60, R61). The width operand accepts
0..15. -/
def AsmLine.wellFormed : AsmLine → Bool
  | .create width poly init xorout refl =>
    fits 4 width && fits 8 poly && fits 8 init && fits 8 xorout && fits 1 refl
  | .createT width init xorout refl => fits 4 width && fits 8 init && fits 8 xorout && fits 1 refl
  | .tload index value => fits 8 index && fits 8 value
  | .digest byte => fits 8 byte
  | .reset => true
  | .getCrc => true
  | .word value => fits 32 value
  | .digests bytes => bytes.all (fits 8)
  | .digestsText text => text.all fun c => fits 7 c.toNat
  | .tloadAll entries => entries.length == 256 && entries.all (fits 8)
  | .createWithTable entries width init xorout refl =>
    entries.length == 256 && entries.all (fits 8) && fits 4 width && fits 8 init && fits 8 xorout && fits 1 refl

end Sys2Proof
end

