-- ==== Sys2Proof/Decode.lean ====
section
/-! DEFINITION. Decoding a command word (30_encoding R50 to R58), the encoder written from the same formats, the opcode
map as rows of match and mask (R57), and the assembler (R60, R61). -/

namespace Sys2Proof

/-- Why a word selects no command although its OP is assigned: the format whose reserved field is nonzero
(30_encoding R58). -/
inductive ReservedField where
  /-- CREATE_T with bits [23:16] nonzero. -/
  | createT
  /-- TLOAD with bits [28:16] nonzero. -/
  | tload
  /-- DIGEST with bits [28:8] nonzero. -/
  | digest
  /-- RESET with bits [28:0] nonzero. -/
  | reset
  /-- GET_CRC with bits [28:0] nonzero. -/
  | getCrc
  deriving DecidableEq, Repr

/-- What a 32-bit word decodes to: a command, or ILLEGAL by the name of the reserved field (30_encoding R50, R58). -/
inductive Decoded where
  | command (i : Instr)
  | illegal (why : ReservedField)
  deriving DecidableEq, Repr

/-- `w[28]`, the `reflect` operand (30_encoding R56). -/
def reflectField (w : Word) : Bool := w.getLsbD 28

/-- `w[27:24]`, the `width` operand (30_encoding R56). -/
def widthField (w : Word) : BitVec 4 := w.extractLsb' 24 4

/-- `w[23:16]`, the `polynomial` operand, reserved in CREATE_T (30_encoding R52, R56). -/
def polynomialField (w : Word) : Byte := w.extractLsb' 16 8

/-- `w[15:8]`: `initial` in format C, `index` in format T (30_encoding R56). -/
def highByteField (w : Word) : Byte := w.extractLsb' 8 8

/-- `w[7:0]`: `final_xor` in format C, `value` in format T, `byte` in format D (30_encoding R56). -/
def lowByteField (w : Word) : Byte := w.extractLsb' 0 8

/-- `w[28:0]`, everything below OP. -/
def payloadField (w : Word) : BitVec 29 := w.extractLsb' 0 29

/-- The decode function of 30_encoding R58, total on 32-bit words. -/
def decode (w : Word) : Decoded :=
  let op : BitVec 3 := w.extractLsb' 29 3
  if op = 0b001#3 then
    .command (.create (reflectField w) (widthField w) (polynomialField w) (highByteField w) (lowByteField w))
  else if op = 0b010#3 then
    if polynomialField w = 0 then
      .command (.createT (reflectField w) (widthField w) (highByteField w) (lowByteField w))
    else .illegal .createT
  else if op = 0b011#3 then
    if w.extractLsb' 16 13 = 0#13 then .command (.tload (highByteField w) (lowByteField w)) else .illegal .tload
  else if op = 0b100#3 then
    if w.extractLsb' 8 21 = 0#21 then .command (.digest (lowByteField w)) else .illegal .digest
  else if op = 0b101#3 then
    if payloadField w = 0 then .command .reset else .illegal .reset
  else if op = 0b110#3 then
    if payloadField w = 0 then .command .getCrc else .illegal .getCrc
  else if op = 0b000#3 then .command (.reserved000 (payloadField w))
  else .command (.reserved111 (payloadField w))

/-- A field's value at its place in the word: its bit 0 at bit `lo` (30_encoding R52 to R55). -/
def place {n : Nat} (lo : Nat) (v : BitVec n) : Word := v.setWidth 32 <<< lo

/-- The word of a command, each field at the place that its format gives it, every reserved bit 0 (30_encoding R52 to R55,
R60). -/
def encode : Instr → Word
  | .reserved000 payload => place 29 0b000#3 ||| place 0 payload
  | .create reflect width polynomial initial finalXor =>
    place 29 0b001#3 ||| place 28 (BitVec.ofBool reflect) ||| place 24 width ||| place 16 polynomial |||
      place 8 initial ||| place 0 finalXor
  | .createT reflect width initial finalXor =>
    place 29 0b010#3 ||| place 28 (BitVec.ofBool reflect) ||| place 24 width ||| place 8 initial ||| place 0 finalXor
  | .tload index value => place 29 0b011#3 ||| place 8 index ||| place 0 value
  | .digest byte => place 29 0b100#3 ||| place 0 byte
  | .reset => place 29 0b101#3
  | .getCrc => place 29 0b110#3
  | .reserved111 payload => place 29 0b111#3 ||| place 0 payload

/-- The mnemonic of a command's row in the opcode table (30_encoding R57). -/
def Instr.mnemonic : Instr → String
  | .reserved000 _ => "reserved_000"
  | .create _ _ _ _ _ => "CREATE"
  | .createT _ _ _ _ => "CREATE_T"
  | .tload _ _ => "TLOAD"
  | .digest _ => "DIGEST"
  | .reset => "RESET"
  | .getCrc => "GET_CRC"
  | .reserved111 _ => "reserved_111"

/-- One row of the opcode map (30_encoding R57). -/
structure OpcodeRow where
  mnemonic : String
  pattern : Word
  mask : Word
  deriving DecidableEq, Repr

/-- The opcode map of 30_encoding R57, in its order; `pattern` is the column `match`. -/
def opcodeMap : List OpcodeRow :=
  [⟨"reserved_000", 0x00000000, 0xE0000000⟩,
   ⟨"CREATE", 0x20000000, 0xE0000000⟩,
   ⟨"CREATE_T", 0x40000000, 0xE0FF0000⟩,
   ⟨"TLOAD", 0x60000000, 0xFFFF0000⟩,
   ⟨"DIGEST", 0x80000000, 0xFFFFFF00⟩,
   ⟨"RESET", 0xA0000000, 0xFFFFFFFF⟩,
   ⟨"GET_CRC", 0xC0000000, 0xFFFFFFFF⟩,
   ⟨"reserved_111", 0xE0000000, 0xE0000000⟩]

/-- A word selects a row exactly when `(w & mask) == match` (30_encoding R57). -/
def OpcodeRow.selects (r : OpcodeRow) (w : Word) : Bool := w &&& r.mask == r.pattern

/-- The 32-bit word that an instruction of the opcode table of `nbits` bits stands for: its bits above `nbits` are 0. -/
def tableWord (nbits w : Nat) : Word := BitVec.ofNat 32 (w % 2 ^ nbits)

/-- The command this decoder reads from a word numbered as the opcode table numbers it; none where it is ILLEGAL. -/
def decodeTableWord (nbits w : Nat) : Option Instr :=
  match decode (tableWord nbits w) with
  | .command i => some i
  | .illegal _ => none

/-- The commands of `DIGESTS b0, .., bn-1` (30_encoding R61). -/
def digestWords (bytes : List Nat) : List Word := bytes.map fun b => encode (.digest (BitVec.ofNat 8 b))

/-- The commands of `TLOADALL t0, .., t255` (30_encoding R61), from entry `k` on. -/
def tloadWordsFrom : Nat → List Nat → List Word
  | _, [] => []
  | k, t :: ts => encode (.tload (BitVec.ofNat 8 k) (BitVec.ofNat 8 t)) :: tloadWordsFrom (k + 1) ts

/-- The word of `CREATE_T width, init, xorout, refl` (30_encoding R60). -/
def createTWord (width init xorout refl : Nat) : Word :=
  encode (.createT (refl == 1) (BitVec.ofNat 4 width) (BitVec.ofNat 8 init) (BitVec.ofNat 8 xorout))

/-- The words of a line whose operands fit (30_encoding R60, R61). -/
def AsmLine.words : AsmLine → List Word
  | .create width poly init xorout refl =>
    [encode (.create (refl == 1) (BitVec.ofNat 4 width) (BitVec.ofNat 8 poly) (BitVec.ofNat 8 init)
      (BitVec.ofNat 8 xorout))]
  | .createT width init xorout refl => [createTWord width init xorout refl]
  | .tload index value => [encode (.tload (BitVec.ofNat 8 index) (BitVec.ofNat 8 value))]
  | .digest byte => [encode (.digest (BitVec.ofNat 8 byte))]
  | .reset => [encode .reset]
  | .getCrc => [encode .getCrc]
  | .word value => [BitVec.ofNat 32 value]
  | .digests bytes => digestWords bytes
  | .digestsText text => digestWords (text.map Char.toNat)
  | .tloadAll entries => tloadWordsFrom 0 entries
  | .createWithTable entries width init xorout refl =>
    tloadWordsFrom 0 entries ++ [createTWord width init xorout refl]

/-- Assembling a line: an operand that does not fit its field is an assembly error, not an encoding
(30_encoding R60). -/
def AsmLine.assemble (l : AsmLine) : Option (List Word) := if l.wellFormed then some l.words else none

/-! ### Reading a line of assembler text (30_encoding R60, R61)

DESIGN CHOICE (log entry 9, safe): spaces may stand around operands, mnemonics are as the spec spells them, a hexadecimal
digit may be a capital or a small letter, and a text operand runs to the line's last quotation mark. -/

/-- The value of a digit in a base up to 16. -/
def digitValue (base : Nat) (c : Char) : Option Nat :=
  let n := c.toNat
  let v := if 48 ≤ n && n ≤ 57 then n - 48 else if 65 ≤ n && n ≤ 70 then n - 55 else if 97 ≤ n && n ≤ 102 then n - 87 else 16
  if v < base then some v else none

/-- The number that digits denote, the most significant first, onto an accumulator. -/
def readDigitsFrom (base : Nat) : Nat → List Char → Option Nat
  | acc, [] => some acc
  | acc, c :: cs =>
    match digitValue base c with
    | some v => readDigitsFrom base (acc * base + v) cs
    | none => none

/-- At least one digit. -/
def readDigits (base : Nat) (cs : List Char) : Option Nat := if cs.isEmpty then none else readDigitsFrom base 0 cs

/-- A number is decimal or `0x` hexadecimal (30_encoding R60). -/
def readNumber : List Char → Option Nat
  | '0' :: 'x' :: cs => readDigits 16 cs
  | cs => readDigits 10 cs

/-- The text without the spaces before and after it. -/
def trimSpaces (cs : List Char) : List Char :=
  ((cs.dropWhile (· == ' ')).reverse.dropWhile (· == ' ')).reverse

/-- The pieces of a text between its commas. -/
def splitCommas : List Char → List (List Char)
  | [] => [[]]
  | c :: cs =>
    match splitCommas cs with
    | [] => [[c]]
    | piece :: pieces => if c == ',' then [] :: piece :: pieces else (c :: piece) :: pieces

/-- The numbers of an operand list; no text is no operand. -/
def readOperands (cs : List Char) : Option (List Nat) :=
  if (trimSpaces cs).isEmpty then some [] else (splitCommas cs).mapM fun piece => readNumber (trimSpaces piece)

/-- The text between quotation marks. -/
def readQuoted : List Char → Option (List Char)
  | '"' :: cs =>
    match cs.reverse with
    | '"' :: inner => some inner.reverse
    | _ => none
  | _ => none

/-- The line that a mnemonic and its numbers make, by the operand orders of 30_encoding R60 and R61. -/
def readWithOperands (mnemonic : List Char) (operands : List Nat) : Option AsmLine :=
  if mnemonic == "CREATE".toList then
    match operands with
    | [width, poly, init, xorout, refl] => some (.create width poly init xorout refl)
    | _ => none
  else if mnemonic == "CREATE_T".toList then
    match operands with
    | [width, init, xorout, refl] => some (.createT width init xorout refl)
    | _ => none
  else if mnemonic == "TLOAD".toList then
    match operands with
    | [index, value] => some (.tload index value)
    | _ => none
  else if mnemonic == "DIGEST".toList then
    match operands with
    | [byte] => some (.digest byte)
    | _ => none
  else if mnemonic == "RESET".toList then if operands.isEmpty then some .reset else none
  else if mnemonic == "GET_CRC".toList then if operands.isEmpty then some .getCrc else none
  else if mnemonic == ".word".toList then
    match operands with
    | [value] => some (.word value)
    | _ => none
  else if mnemonic == "DIGESTS".toList then some (.digests operands)
  else if mnemonic == "TLOADALL".toList then some (.tloadAll operands)
  else if mnemonic == "CREATE_WITH_TABLE".toList then
    match operands.drop 256 with
    | [width, init, xorout, refl] => some (.createWithTable (operands.take 256) width init xorout refl)
    | _ => none
  else none

/-- A line of assembler text: a mnemonic, and after spaces its operands, separated by commas (30_encoding R60, R61). -/
def readLine (line : List Char) : Option AsmLine :=
  let text := trimSpaces line
  let mnemonic := text.takeWhile (· != ' ')
  let rest := trimSpaces (text.dropWhile (· != ' '))
  match mnemonic == "DIGESTS".toList, readQuoted rest with
  | true, some quoted => some (.digestsText quoted)
  | _, _ => (readOperands rest).bind (readWithOperands mnemonic)

/-- The words of a program's text, one command a line; none where a line is an assembly error. -/
def assembleProgram (lines : List (List Char)) : Option (List Word) :=
  (lines.mapM fun l => (readLine l).bind AsmLine.assemble).map List.flatten

end Sys2Proof
end

