-- ==== Sys2Proof/Machine/Reserved.lean ====
section
/-! DEFINITION. Words that name no command: the two reserved opcodes, and words of an assigned opcode with a nonzero
reserved field. Executing one raises IllegalCommand and changes no state (30_encoding R58, 60_exceptions R95). -/

namespace Sys2Proof.Machine

/-- OP 0b000, reserved: IllegalCommand, whatever the other bits (30_encoding R58). -/
def execReserved000 (_payload : BitVec 29) (s : State) : Host.Outcome State Fault Refusal := raise .illegalCommand s

/-- OP 0b111, reserved: IllegalCommand, whatever the other bits (30_encoding R58). -/
def execReserved111 (_payload : BitVec 29) (s : State) : Host.Outcome State Fault Refusal := raise .illegalCommand s

/-- A word with a nonzero reserved field: IllegalCommand, whichever field it is (30_encoding R58). -/
def execIllegal (_why : ReservedField) (s : State) : Host.Outcome State Fault Refusal := raise .illegalCommand s

end Sys2Proof.Machine
end

