-- ==== Sys2Proof/Machine/Dispatch.lean ====
section
/-! DEFINITION. Executing a command: one arm per constructor of Instr, each a call of that command's meaning. -/

namespace Sys2Proof.Machine

/-- The engine executes one command (00_scope R2, 20_memory R42): the state it leaves, its response presented. -/
def exec (i : Instr) (s : State) : Host.Outcome State Fault Refusal :=
  match i with
  | .reserved000 payload => Sys2Proof.Machine.execReserved000 payload s
  | .create reflect width polynomial initial finalXor => Sys2Proof.Machine.execCreate reflect width polynomial initial finalXor s
  | .createT reflect width initial finalXor => Sys2Proof.Machine.execCreateT reflect width initial finalXor s
  | .tload index value => Sys2Proof.Machine.execTload index value s
  | .digest byte => Sys2Proof.Machine.execDigest byte s
  | .reset => Sys2Proof.Machine.execReset s
  | .getCrc => Sys2Proof.Machine.execGetCrc s
  | .reserved111 payload => Sys2Proof.Machine.execReserved111 payload s

end Sys2Proof.Machine
end

