-- ==== Sys2Proof/Machine/Handshake.lean ====
section
/-! DEFINITION. The handshake on the two ports (70_reset_and_hazards R113): a command transfers when the engine is idle
and is then executed to completion, a response transfers when the host accepts it, and otherwise the engine holds. -/

namespace Sys2Proof.Machine

/-- The engine executes an accepted word: the command it decodes to, or IllegalCommand (30_encoding R58). -/
def executeWord (w : Word) (s : State) : Host.Outcome State Fault Refusal :=
  match decode w with
  | .command i => exec i s
  | .illegal why => execIllegal why s

/-- The host presents `w`: it transfers if the engine is idle (cmd_ready = 1) and is executed; while a response waits
the engine holds (70_reset_and_hazards R113). `ms` are the host's moves after this one. -/
def commandPort (w : Word) (ms : List HostMove) (s : State) : Host.Outcome State Fault Refusal :=
  match s.response with
  | none => executeWord w (s.planned ms)
  | some _ => .next s

/-- The host is ready for a response: it transfers if one waits, and the engine is idle again; otherwise nothing
happens (70_reset_and_hazards R113). -/
def responsePort (ms : List HostMove) (s : State) : Host.Outcome State Fault Refusal :=
  match s.response with
  | some r => .next ((s.planned ms).accepted r)
  | none => .next s

/-- One event at the ports, the host's next move deciding which (60_exceptions R108): with no move left the engine
holds and its state does not change (70_reset_and_hazards R113). -/
def portEvent (s : State) : Host.Outcome State Fault Refusal :=
  match s.plan with
  | [] => .next s
  | .issue w :: ms => commandPort w ms s
  | .accept :: ms => responsePort ms s
  | .pause :: ms => .next (s.planned ms)
  | .powerOnReset :: ms => .next (s.planned ms).powerOn

/-- The state in which the host presents `w` next and the engine is idle, so that the next event executes it. -/
def State.presenting (w : Word) (s : State) : State :=
  { s with response := none, plan := .issue w :: s.plan }

end Sys2Proof.Machine
end

