-- ==== Sys2Proof/Machine/Step.lean ====
section
/-! DEFINITION. One step of the machine: one event of the handshake (70_reset_and_hazards R113). -/

namespace Sys2Proof.Machine

/-- One step: one event at the ports, a command being taken and executed to completion in one step (20_memory R42). -/
def step (s : State) : Host.Outcome State Fault Refusal := portEvent s

/-- The word of the opcode table placed where the next step takes its command: the host presents it first, and no
response waits, so that it transfers (log entry 3). -/
def State.withFetchWord (s : State) (nbits w : Nat) : State := s.presenting (tableWord nbits w)

end Sys2Proof.Machine
end

