-- ==== Sys2Proof/Safety.lean ====
section
/-! DEFINITION. The terms that claims use: runs and their observations (70_reset_and_hazards R116), the form of a
response (30_encoding R59), the consistency of a built engine (10_state R19 to R26), what a host can learn of a state
(10_state R32, R33), and sequences of commands. -/

namespace Sys2Proof.Machine

/-- ERR, bit 31 of a response word (30_encoding R59). -/
def isErrorWord (r : Word) : Bool := r.getLsbD 31

/-- The command words that the host has still to issue in the current run: those before its next power-on reset, since a
run is the words issued after one power-on reset (70_reset_and_hazards R116). -/
def commandsLeft : List HostMove → List Word
  | [] => []
  | .powerOnReset :: _ => []
  | .issue w :: ms => w :: commandsLeft ms
  | .accept :: ms => commandsLeft ms
  | .pause :: ms => commandsLeft ms

/-- The run is over: the host issues no further command in it, and the response to the last command has been accepted
(70_reset_and_hazards R116). Its observation is `observed`, until a power-on reset begins the next run. A run that is cut
by power-on reset, a response waiting or a command not yet issued, has not ended (log entry 15). -/
def State.runEnded (s : State) : Bool := (commandsLeft s.plan).isEmpty && s.response.isNone

/-- The run faulted: some response that the host accepted has ERR = 1 (70_reset_and_hazards R116). -/
def State.runFaulted (s : State) : Bool := s.observed.any isErrorWord

/-- A safe run so far: no response with ERR = 1, accepted or waiting (70_reset_and_hazards R116). -/
def State.safe (s : State) : Bool := !s.runFaulted && !(s.response.any isErrorWord)

/-- The registers S1 to S13 of two states are equal (10_state R17). -/
def State.sameRegisters (s t : State) : Prop :=
  t.cfgValid = s.cfgValid ∧ t.width = s.width ∧ t.reflect = s.reflect ∧ t.byTable = s.byTable ∧ t.poly = s.poly ∧
  t.initial = s.initial ∧ t.finalXor = s.finalXor ∧ t.highBit = s.highBit ∧ t.mask = s.mask ∧ t.sum = s.sum ∧
  t.lut = s.lut ∧ t.stage = s.stage ∧ t.stageLoaded = s.stageLoaded

/-- S1 to S10 of two states are equal (20_memory R43). -/
def State.sameEngine (s t : State) : Prop :=
  t.cfgValid = s.cfgValid ∧ t.width = s.width ∧ t.reflect = s.reflect ∧ t.byTable = s.byTable ∧ t.poly = s.poly ∧
  t.initial = s.initial ∧ t.finalXor = s.finalXor ∧ t.highBit = s.highBit ∧ t.mask = s.mask ∧ t.sum = s.sum

/-- A built engine's registers fit together: WIDTH is 1..8 (10_state R19), HIGH_BIT and MASK are those of WIDTH (R25,
R26), BY_TABLE = 1 exactly at width 8 (R21), POLY is 0 on the table path and has no bit at or above WIDTH on the bitwise
reflected path (R22). Says nothing while CFG_VALID = 0, where the registers are unspecified (R33). -/
def State.Consistent (s : State) : Prop :=
  s.cfgValid = true →
    1 ≤ s.width.toNat ∧ s.width.toNat ≤ 8 ∧
    s.highBit = BitVec.ofNat 8 (2 ^ (s.width.toNat - 1)) ∧
    s.mask = BitVec.ofNat 8 (2 ^ s.width.toNat - 1) ∧
    (s.byTable = true ↔ s.width.toNat = 8) ∧
    (s.byTable = true → s.poly = 0) ∧
    (s.byTable = false → s.reflect = true → s.poly.toNat < 2 ^ s.width.toNat)

/-- A response word has the form of 30_encoding R59: it is a success with DATA in bits [7:0] and nothing else, or the
error word of a CODE 1..4. -/
def ResponseForm (r : Word) : Prop :=
  (∃ data : Byte, r = data.zeroExtend 32) ∨
  (∃ code : Nat, 1 ≤ code ∧ code ≤ 4 ∧ r = 0x80000000 ||| BitVec.ofNat 32 (code * 256))

/-- Every response, waiting or accepted, has the form of R59. -/
def State.ResponsesFormed (s : State) : Prop :=
  (∀ r, s.response = some r → ResponseForm r) ∧ ∀ r ∈ s.observed, ResponseForm r

/-- The invariant of the machine. -/
def State.Inv (s : State) : Prop := s.Consistent ∧ s.ResponsesFormed

/-- The two states agree on all that a later response can depend on (10_state R32, R33): CFG_VALID, STAGE_LOADED, the
STAGE entries that were loaded, the ports and the host; S2 to S10 once an engine exists; LUT once a table engine does. -/
def State.Agree (s t : State) : Prop :=
  s.cfgValid = t.cfgValid ∧ s.stageLoaded = t.stageLoaded ∧ s.response = t.response ∧ s.plan = t.plan ∧
  s.observed = t.observed ∧
  (∀ k : Byte, entry s.stageLoaded k = true → entry s.stage k = entry t.stage k) ∧
  (s.cfgValid = true → s.sameEngine t) ∧
  (s.cfgValid = true → s.byTable = true → s.lut = t.lut)

/-- Commands executed one after another, the host taking each response at once (20_memory R45). -/
def executeAll : List Instr → State → Host.Outcome State Fault Refusal
  | [], s => .next s
  | i :: is, s =>
    match exec i s with
    | .next t => executeAll is t
    | .fault r => .fault r
    | .refused r => .refused r

/-- `digest(b0 .. bn-1)`: one DIGEST per byte, in order (42_digest_engine R86, 20_memory R38). -/
def digestBytes (bytes : List Byte) (s : State) : Host.Outcome State Fault Refusal :=
  executeAll (bytes.map .digest) s

/-- `TLOADALL` of a table: one TLOAD per index, 0 to 255 (30_encoding R61). -/
def tloadAll (t : Indexed Byte) : List Instr :=
  (List.range 256).map fun k => .tload (BitVec.ofNat 8 k) (entry t (BitVec.ofNat 8 k))

/-- The width-8 bitwise engine of 42_digest_engine R93: the state CREATE would build at width 8 if step 4 were skipped.
No command builds it (90_conflicts C4). -/
def bitwiseEngine8 (reflect : Bool) (polynomial initial finalXor : Byte) (s : State) : State :=
  { s with
    cfgValid := true
    width := 8
    reflect := reflect
    byTable := false
    poly := if reflect then reflectBits 0x80 polynomial else polynomial
    initial := initial
    finalXor := finalXor
    highBit := 0x80
    mask := 0xFF
    sum := if reflect then reflectBits 0x80 initial else initial }

end Sys2Proof.Machine
end

