-- ==== Sys2Proof/Certificates/Slice0/Obligations.lean ====
section
/-! DEFINITION. The statements for the provers, each from a numbered rule of spec/ or derived from some. -/

open Sys2Proof Sys2Proof.Machine

/-! ## Encoding -/

/-- Decoding the word of any command gives that command back, with every operand at every value (30_encoding R52 to R55,
R58). -/
def Obligations.DecodeOfEncodeIsTheCommand : Prop :=
  ∀ i : Instr, i.wellFormed = true → decode (encode i) = .command i

/-- A word that decodes to a command is the word of that command: each command has one word (92_eei_decisions D5). -/
def Obligations.EncodeOfDecodeIsTheWord : Prop :=
  ∀ (w : Word) (i : Instr), decode w = .command i → encode i = w

/-- 30_encoding R57: the opcode map has these eight rows, and a word selects a row exactly when `(w & mask) == match`. -/
def Obligations.MatchAndMaskSelectTheCommand : Prop :=
  ∀ (name : String) (pattern mask : Word),
    (name, pattern, mask) ∈
      [("reserved_000", (0x00000000 : Word), (0xE0000000 : Word)), ("CREATE", 0x20000000, 0xE0000000),
       ("CREATE_T", 0x40000000, 0xE0FF0000), ("TLOAD", 0x60000000, 0xFFFF0000), ("DIGEST", 0x80000000, 0xFFFFFF00),
       ("RESET", 0xA0000000, 0xFFFFFFFF), ("GET_CRC", 0xC0000000, 0xFFFFFFFF),
       ("reserved_111", 0xE0000000, 0xE0000000)] →
    ∀ w : Word, w &&& mask = pattern ↔ ∃ i, decode w = .command i ∧ i.mnemonic = name

/-- 30_encoding R58: the decode function of the spec, row by row, with ILLEGAL exactly where the spec has it, and
executing ILLEGAL (the reserved opcodes among it) raises IllegalCommand and changes no state. -/
def Obligations.DecodingIsTotalAndIllegalWordsRaise : Prop :=
  ∀ (w : Word) (s : State) (ms : List HostMove), s.plan = .issue w :: ms → s.response = none →
    let op := w.toNat / 2 ^ 29
    let illegal := op = 0 ∨ op = 7 ∨ (op = 2 ∧ w.extractLsb' 16 8 ≠ 0) ∨ (op = 3 ∧ w.extractLsb' 16 13 ≠ 0) ∨
      (op = 4 ∧ w.extractLsb' 8 21 ≠ 0) ∨ ((op = 5 ∨ op = 6) ∧ w.extractLsb' 0 29 ≠ 0)
    (op = 1 → ∃ r wd p i x, decode w = .command (.create r wd p i x)) ∧
    (op = 2 → w.extractLsb' 16 8 = 0 → ∃ r wd i x, decode w = .command (.createT r wd i x)) ∧
    (op = 3 → w.extractLsb' 16 13 = 0 → ∃ k v, decode w = .command (.tload k v)) ∧
    (op = 4 → w.extractLsb' 8 21 = 0 → ∃ b, decode w = .command (.digest b)) ∧
    (op = 5 → w.extractLsb' 0 29 = 0 → decode w = .command .reset) ∧
    (op = 6 → w.extractLsb' 0 29 = 0 → decode w = .command .getCrc) ∧
    (illegal → step s = .next { s with plan := ms, response := some 0x80000100 })

/-- 30_encoding R56: every operand is its field read as an unsigned number, nothing is sign-extended, scaled or shifted;
a WD outside the legal set still decodes and raises InvalidWidth at execution. -/
def Obligations.OperandsAreTheFieldsOfTheWord : Prop :=
  ∀ w : Word,
    (∀ r wd p i x, decode w = .command (.create r wd p i x) →
      (r = true ↔ w.toNat / 2 ^ 28 % 2 = 1) ∧ wd.toNat = w.toNat / 2 ^ 24 % 16 ∧ p.toNat = w.toNat / 2 ^ 16 % 256 ∧
      i.toNat = w.toNat / 2 ^ 8 % 256 ∧ x.toNat = w.toNat % 256 ∧
      (wd.toNat = 0 ∨ 8 < wd.toNat → ∀ s, exec (.create r wd p i x) s = .next { s with response := some 0x80000200 })) ∧
    (∀ r wd i x, decode w = .command (.createT r wd i x) →
      (r = true ↔ w.toNat / 2 ^ 28 % 2 = 1) ∧ wd.toNat = w.toNat / 2 ^ 24 % 16 ∧
      i.toNat = w.toNat / 2 ^ 8 % 256 ∧ x.toNat = w.toNat % 256 ∧
      (wd.toNat ≠ 8 → ∀ s, exec (.createT r wd i x) s = .next { s with response := some 0x80000200 })) ∧
    (∀ k v, decode w = .command (.tload k v) → k.toNat = w.toNat / 2 ^ 8 % 256 ∧ v.toNat = w.toNat % 256) ∧
    (∀ b, decode w = .command (.digest b) → b.toNat = w.toNat % 256)

/-- Words that the spec writes out decode to the commands they stand for (30_encoding R60, 95_test_vectors 2.1, 2.2). -/
def Obligations.WordsOfTheSpecDecode : Prop :=
  decode 0x28070000 = .command (.create false 8 0x07 0x00 0x00) ∧
  decode 0x35141F1F = .command (.create true 5 0x14 0x1F 0x1F) ∧
  decode 0x4800FD55 = .command (.createT false 8 0xFD 0x55) ∧
  decode 0x60000172 = .command (.tload 0x01 0x72) ∧
  decode 0x80000031 = .command (.digest 0x31) ∧
  decode 0xA0000000 = .command .reset ∧
  decode 0xC0000000 = .command .getCrc ∧
  decode 0x43FF0000 = .illegal .createT ∧
  decode 0x1FFFFFFF = .command (.reserved000 0x1FFFFFFF) ∧
  decode 0xE0000000 = .command (.reserved111 0)

/-- 30_encoding R60: a line encodes to its fields at their places, and an operand that does not fit its field is an
assembly error. -/
def Obligations.AssemblerLinesEncode : Prop :=
  (∀ wd p i x r : Nat, (AsmLine.create wd p i x r).assemble =
    if wd < 16 ∧ p < 256 ∧ i < 256 ∧ x < 256 ∧ r < 2 then
      some [BitVec.ofNat 32 (2 ^ 29 * 1 + 2 ^ 28 * r + 2 ^ 24 * wd + 2 ^ 16 * p + 2 ^ 8 * i + x)] else none) ∧
  (∀ wd i x r : Nat, (AsmLine.createT wd i x r).assemble =
    if wd < 16 ∧ i < 256 ∧ x < 256 ∧ r < 2 then
      some [BitVec.ofNat 32 (2 ^ 29 * 2 + 2 ^ 28 * r + 2 ^ 24 * wd + 2 ^ 8 * i + x)] else none) ∧
  (∀ k v : Nat, (AsmLine.tload k v).assemble =
    if k < 256 ∧ v < 256 then some [BitVec.ofNat 32 (2 ^ 29 * 3 + 2 ^ 8 * k + v)] else none) ∧
  (∀ b : Nat, (AsmLine.digest b).assemble = if b < 256 then some [BitVec.ofNat 32 (2 ^ 29 * 4 + b)] else none) ∧
  AsmLine.reset.assemble = some [0xA0000000] ∧
  AsmLine.getCrc.assemble = some [0xC0000000] ∧
  (∀ v : Nat, (AsmLine.word v).assemble = if v < 2 ^ 32 then some [BitVec.ofNat 32 v] else none)

/-- Text lines of the spec assemble to its words: decimal and `0x` numbers, an operand that does not fit, the text form of
`DIGESTS` (30_encoding R60, R61, 95_test_vectors 2.1). -/
def Obligations.LinesOfTheSpecAssemble : Prop :=
  (readLine "CREATE 8, 0x07, 0x00, 0x00, 0".toList).bind AsmLine.assemble = some [0x28070000] ∧
  (readLine "CREATE_T 8, 0xFD, 0x55, 0".toList).bind AsmLine.assemble = some [0x4800FD55] ∧
  (readLine "TLOAD 255, 0xC6".toList).bind AsmLine.assemble = some [0x6000FFC6] ∧
  (readLine "DIGEST 256".toList).bind AsmLine.assemble = none ∧
  (readLine ".word 0x43FF0000".toList).bind AsmLine.assemble = some [0x43FF0000] ∧
  (readLine "DIGESTS \"123\"".toList).bind AsmLine.assemble = some [0x80000031, 0x80000032, 0x80000033]

/-- 30_encoding R61: the expansions of the pseudo-instructions, in order; `DIGESTS` of no bytes is nothing. -/
def Obligations.PseudoInstructionsExpand : Prop :=
  (∀ bs : List Nat, (AsmLine.digests bs).assemble =
    (bs.mapM fun b => (AsmLine.digest b).assemble).map List.flatten) ∧
  (AsmLine.digests []).assemble = some [] ∧
  (∀ cs : List Char, (∀ c ∈ cs, c.toNat < 128) →
    (AsmLine.digestsText cs).assemble = (AsmLine.digests (cs.map Char.toNat)).assemble) ∧
  (∀ ts : List Nat, ts.length = 256 →
    (AsmLine.tloadAll ts).assemble =
      (((List.range 256).zip ts).mapM fun e => (AsmLine.tload e.1 e.2).assemble).map List.flatten) ∧
  (∀ (ts : List Nat) (ws : List Word), (AsmLine.tloadAll ts).assemble = some ws → ws.length = 256) ∧
  (∀ (ts : List Nat) (wd i x r : Nat), (AsmLine.createWithTable ts wd i x r).assemble =
    (AsmLine.tloadAll ts).assemble.bind fun ws => ((AsmLine.createT wd i x r).assemble).map fun vs => ws ++ vs)

/-! ## The step and the handshake -/

/-- A step runs the decoded command: when the engine is idle and the host presents the word of a well-formed command,
the step is that command's execution, the host's move being over (70_reset_and_hazards R113). -/
def Obligations.StepRunsThePresentedCommand : Prop :=
  ∀ (s : State) (w : Word) (ms : List HostMove) (i : Instr),
    s.plan = .issue w :: ms → s.response = none → decode w = .command i → i.wellFormed = true →
    step s = exec i { s with plan := ms }

/-- 70_reset_and_hazards R113: a command transfers exactly when it is presented and the engine is ready, and is then
executed before its response is presented; a response is held until it transfers; the engine is ready only when no
response waits; while no command transfers, no register changes; one command is in flight at a time. -/
def Obligations.HandshakeTransfersInOrder : Prop :=
  (∀ s : State, s.cmdReady = true → s.response = none ∧ s.rspValid = false) ∧
  (∀ (s : State) (w : Word), s.command = some w → s.cmdReady = true →
    ∃ t r, step s = .next t ∧ executeWord w { s with plan := s.plan.tail } = .next t ∧ t.response = some r ∧
      t.cmdReady = false ∧ t.observed = s.observed) ∧
  (∀ (s t : State) (r : Word), s.response = some r → s.rstN = true → step s = .next t →
    s.sameRegisters t ∧
    if s.rspReady = true then t.response = none ∧ t.observed = s.observed ++ [r] ∧ t.plan = s.plan.tail
    else t.response = some r ∧ t.observed = s.observed) ∧
  (∀ s t : State, s.command = none → s.rstN = true → step s = .next t → s.sameRegisters t) ∧
  (∀ s t : State, s.response = none → s.rspReady = true → step s = .next t → t = s)

/-- While there is nothing to transfer the engine holds: with no move left, with a command presented while a response
waits, or with the host ready for a response that is not there, the state does not change (70_reset_and_hazards R113). -/
def Obligations.EngineHoldsWithoutATransfer : Prop :=
  ∀ (s : State) (w : Word) (ms : List HostMove) (r : Word),
    (s.plan = [] → step s = .next s) ∧
    (s.plan = .issue w :: ms → s.response = some r → step s = .next s) ∧
    (s.plan = .accept :: ms → s.response = none → step s = .next s)

/-- 30_encoding R59: every command word produces exactly one response word, an error word, a success word of 0, or for
GET_CRC the checksum with every bit at or above WIDTH zero. -/
def Obligations.EveryWordGetsOneFormedResponse : Prop :=
  ∀ (s : State) (w : Word) (ms : List HostMove),
    s.plan = .issue w :: ms → s.response = none → s.Consistent →
    ∃ t r, step s = .next t ∧ t.response = some r ∧ t.observed = s.observed ∧ t.plan = ms ∧
      ((decode w ≠ .command .getCrc ∧ r = 0) ∨
        (∃ code, 1 ≤ code ∧ code ≤ 4 ∧ r = 0x80000000 ||| (BitVec.ofNat 32 code <<< 8)) ∨
        (decode w = .command .getCrc ∧ r = s.checksum.zeroExtend 32 ∧ r.toNat < 2 ^ s.width.toNat))

/-- No step stops: every state has a next state, with no fault and no refusal (60_exceptions R97, 42_digest_engine
R81). -/
def Obligations.EveryStepHasANextState : Prop :=
  ∀ s : State, ∃ t, step s = .next t

/-- A program of any words runs to its end, whatever the words are and whatever engine there is: each word gets one
response, in order, and the host has accepted them all (70_reset_and_hazards R113, R116). -/
def Obligations.EveryProgramRunsToItsEnd : Prop :=
  ∀ (s : State) (ws : List Word), s.response = none →
    ∃ t rs, Sys2Proof.core.run (2 * ws.length) { s with plan := programMoves ws } = .next t ∧
      t.plan = [] ∧ t.runEnded = true ∧ t.observed = s.observed ++ rs ∧ rs.length = ws.length

/-- The end of a run (70_reset_and_hazards R116): it has not ended while a response waits or a command is left to issue; it
ends when the response to its last command is accepted, whatever moves without a command the host has left, and also when a
power-on reset comes next; once ended it stays so, with the same observation, until power-on reset; and it faulted exactly
when a response of its observation has ERR = 1. -/
def Obligations.RunEndsWhenTheLastResponseIsAccepted : Prop :=
  (∀ (s : State) (r : Word), s.response = some r → s.runEnded = false) ∧
  (∀ (s : State) (w : Word) (before after : List HostMove), (∀ m ∈ before, m ≠ .powerOnReset) →
    s.plan = before ++ .issue w :: after → s.runEnded = false) ∧
  (∀ (s : State) (r : Word) (rest after : List HostMove), (∀ m ∈ rest, m = .accept ∨ m = .pause) →
    s.plan = .accept :: (rest ++ after) → (after = [] ∨ after.head? = some .powerOnReset) → s.response = some r →
    ∃ t, step s = .next t ∧ t.runEnded = true ∧ t.observed = s.observed ++ [r]) ∧
  (∀ s t : State, s.runEnded = true → s.rstN = true → step s = .next t →
    t.runEnded = true ∧ t.observed = s.observed) ∧
  (∀ s : State, s.runFaulted = true ↔ ∃ r ∈ s.observed, isErrorWord r = true)

/-- The values that the spec gives the registers after power-on reset (10_state R33: CFG_VALID = 0, every STAGE_LOADED
bit 0) with no response waiting, at `State.reset`. -/
def Obligations.ResetStateHasTheSpecsValues : Prop :=
  State.reset.cfgValid = false ∧ (∀ k : Byte, entry State.reset.stageLoaded k = false) ∧ State.reset.response = none

/-- Power-on reset (70_reset_and_hazards R109): while rst_n is low the block shows cmd_ready = 0 and rsp_valid = 0; when
it ends CFG_VALID and every STAGE_LOADED bit are 0 and a response not yet accepted is gone; no other step clears
CFG_VALID or a STAGE_LOADED bit. -/
def Obligations.PowerOnResetAloneClearsTheFlags : Prop :=
  (∀ s : State, s.rstN = false → s.cmdReady = false ∧ s.rspValid = false ∧
    ∃ t, step s = .next t ∧ t.cfgValid = false ∧ (∀ k : Byte, entry t.stageLoaded k = false) ∧ t.response = none ∧
      t.plan = s.plan.tail) ∧
  (∀ s t : State, s.rstN = true → step s = .next t →
    (s.cfgValid = true → t.cfgValid = true) ∧
    ∀ k : Byte, entry s.stageLoaded k = true → entry t.stageLoaded k = true)

/-! ## The commands -/

/-- 40_normalizer R71: CREATE for every operand and state: InvalidWidth outside 1..8, the table engine at 8, the bitwise
engine below; STAGE, STAGE_LOADED and the host are not touched; every word with OP = 001 is a CREATE. -/
def Obligations.CreateBuildsTheEngine : Prop :=
  ∀ (r : Bool) (wd : BitVec 4) (p i x : Byte) (s : State),
    ((wd.toNat = 0 ∨ 9 ≤ wd.toNat) → exec (.create r wd p i x) s = .next { s with response := some 0x80000200 }) ∧
    (1 ≤ wd.toNat → wd.toNat ≤ 8 → ∃ t, exec (.create r wd p i x) s = .next t ∧
      t.cfgValid = true ∧ t.width = wd ∧ t.reflect = r ∧ t.initial = i ∧ t.finalXor = x ∧
      t.highBit = BitVec.ofNat 8 (2 ^ (wd.toNat - 1)) ∧ t.mask = BitVec.ofNat 8 (2 ^ wd.toNat - 1) ∧
      t.sum = (if r = true then reflectBits t.highBit i else i) ∧
      (if wd.toNat = 8 then
        t.byTable = true ∧ t.poly = 0 ∧
        t.lut = (if r = true then buildTableReflected p else buildTableNormal p)
      else
        t.byTable = false ∧ t.poly = (if r = true then reflectBits t.highBit p else p) ∧ t.lut = s.lut) ∧
      t.stage = s.stage ∧ t.stageLoaded = s.stageLoaded ∧ t.response = some 0 ∧ t.plan = s.plan ∧
      t.observed = s.observed) ∧
    (∀ w : Word, w.toNat / 2 ^ 29 = 1 → ∃ r' wd' p' i' x', decode w = .command (.create r' wd' p' i' x'))

/-- 40_normalizer R72: CREATE_T for every operand and state: InvalidWidth unless WD is 8, then TableIncomplete unless
every entry was loaded, then the engine whose LUT is a copy of STAGE; a word with bits [23:16] nonzero is no CREATE_T and
raises IllegalCommand. -/
def Obligations.CreateTCopiesTheStagedTable : Prop :=
  (∀ (r : Bool) (wd : BitVec 4) (i x : Byte) (s : State),
    (wd.toNat ≠ 8 → exec (.createT r wd i x) s = .next { s with response := some 0x80000200 }) ∧
    (wd.toNat = 8 → (∃ k : Byte, entry s.stageLoaded k = false) →
      exec (.createT r wd i x) s = .next { s with response := some 0x80000400 }) ∧
    (wd.toNat = 8 → (∀ k : Byte, entry s.stageLoaded k = true) →
      exec (.createT r wd i x) s = .next
        { s with
          cfgValid := true
          width := 8
          reflect := r
          byTable := true
          poly := 0
          initial := i
          finalXor := x
          highBit := 0x80
          mask := 0xFF
          sum := if r = true then reflectBits 0x80 i else i
          lut := s.stage
          response := some 0 })) ∧
  (∀ (w : Word) (s : State), w.toNat / 2 ^ 29 = 2 → w.toNat / 2 ^ 16 % 256 ≠ 0 →
    executeWord w s = .next { s with response := some 0x80000100 })

/-- 40_normalizer R73: TLOAD writes STAGE[IDX] and its loaded bit and nothing else, in every state; the last write to an
index wins; a word with bits [28:16] nonzero raises IllegalCommand. -/
def Obligations.TloadWritesOneStagedEntry : Prop :=
  (∀ (k v : Byte) (s : State), ∃ t, exec (.tload k v) s = .next t ∧
    entry t.stage k = v ∧ entry t.stageLoaded k = true ∧
    (∀ j : Byte, j ≠ k → entry t.stage j = entry s.stage j ∧ entry t.stageLoaded j = entry s.stageLoaded j) ∧
    t = { s with stage := t.stage, stageLoaded := t.stageLoaded, response := some 0 }) ∧
  (∀ (w : Word) (s : State), w.toNat / 2 ^ 29 = 3 → w.toNat / 2 ^ 16 % 2 ^ 13 ≠ 0 →
    executeWord w s = .next { s with response := some 0x80000100 })

/-- 42_digest_engine R82: DIGEST folds any byte into SUM by the path that BY_TABLE and REFLECT select, and changes
nothing else; without an engine it raises NotConfigured; a word with bits [28:8] nonzero raises IllegalCommand. -/
def Obligations.DigestFoldsOneByte : Prop :=
  (∀ (b : Byte) (s : State),
    (s.cfgValid = false → exec (.digest b) s = .next { s with response := some 0x80000300 }) ∧
    (s.cfgValid = true → exec (.digest b) s = .next
      { s with
        sum :=
          if s.byTable = true then entry s.lut (s.sum ^^^ b)
          else if s.reflect = false then digestLoop s.highBit s.poly b s.sum
          else digestLoop s.highBit s.poly (reflectBits 0x80 b) s.sum
        response := some 0 })) ∧
  (∀ (w : Word) (s : State), w.toNat / 2 ^ 29 = 4 → w.toNat / 2 ^ 8 % 2 ^ 21 ≠ 0 →
    executeWord w s = .next { s with response := some 0x80000100 })

/-- 42_digest_engine R83: on the table path SUM becomes `table[(sum XOR byte) & 0xFF]`, whatever REFLECT, POLY, HIGH_BIT
and MASK hold. -/
def Obligations.TablePathIsOneLookup : Prop :=
  ∀ (b : Byte) (s : State) (refl : Bool) (poly hb m : Byte), s.cfgValid = true → s.byTable = true →
    ∃ t, exec (.digest b) { s with reflect := refl, poly := poly, highBit := hb, mask := m } = .next t ∧
      t.sum = entry s.lut ((s.sum ^^^ b) &&& 0xFF)

/-- 42_digest_engine R84: the bitwise loop, one round per input bit from bit 7 to bit 0: the carry out of HIGH_BIT, flipped
by the input bit, decides whether POLY is XORed into the shifted sum. -/
def Obligations.BitwiseNormalPathTakesTheHighBitFirst : Prop :=
  ∀ (b : Byte) (s : State), s.cfgValid = true → s.byTable = false → s.reflect = false →
    exec (.digest b) s = .next
      { s with
        sum := [7, 6, 5, 4, 3, 2, 1, 0].foldl
          (fun (sum : Byte) (k : Nat) =>
            if (if b.getLsbD k = true then (sum &&& s.highBit) ^^^ s.highBit else sum &&& s.highBit) = 0
            then sum <<< 1 else (sum <<< 1) ^^^ s.poly)
          s.sum
        response := some 0 }

/-- 42_digest_engine R85 (and 20_memory R39): on the bitwise reflected path the same loop consumes the original byte's
bit 0 first, at every width. -/
def Obligations.BitwiseReflectedPathTakesTheLowBitFirst : Prop :=
  ∀ (b : Byte) (s : State), s.cfgValid = true → s.byTable = false → s.reflect = true →
    exec (.digest b) s = .next
      { s with
        sum := [0, 1, 2, 3, 4, 5, 6, 7].foldl
          (fun (sum : Byte) (k : Nat) =>
            if (if b.getLsbD k = true then (sum &&& s.highBit) ^^^ s.highBit else sum &&& s.highBit) = 0
            then sum <<< 1 else (sum <<< 1) ^^^ s.poly)
          s.sum
        response := some 0 }

/-- 42_digest_engine R87: RESET sets SUM to the starting sum and changes no other register; a second RESET changes
nothing more; without an engine it raises NotConfigured; a word with bits [28:0] nonzero raises IllegalCommand. -/
def Obligations.ResetRestoresTheStartingSum : Prop :=
  (∀ s : State,
    (s.cfgValid = false → exec .reset s = .next { s with response := some 0x80000300 }) ∧
    (s.cfgValid = true → ∃ t, exec .reset s = .next t ∧ exec .reset t = .next t ∧
      t = { s with
        sum := if s.reflect = true then reflectBits s.highBit s.initial else s.initial
        response := some 0 })) ∧
  (∀ (w : Word) (s : State), w.toNat / 2 ^ 29 = 5 → w.toNat % 2 ^ 29 ≠ 0 →
    executeWord w s = .next { s with response := some 0x80000100 })

/-- 42_digest_engine R88: GET_CRC responds with the checksum, un-reflecting SUM on the bitwise reflected path alone, and
writes no register; without an engine it raises NotConfigured; a word with bits [28:0] nonzero raises IllegalCommand;
right after a construction it shows the starting sum on the table and non-reflected paths, and INITIAL on the bitwise
reflected path, each XORed with FINAL_XOR and masked. -/
def Obligations.GetCrcReadsTheChecksum : Prop :=
  (∀ s : State,
    (s.cfgValid = false → exec .getCrc s = .next { s with response := some 0x80000300 }) ∧
    (s.cfgValid = true → exec .getCrc s = .next
      { s with
        response := some (BitVec.zeroExtend 32
          (((if s.byTable = false ∧ s.reflect = true then reflectBits s.highBit s.sum else s.sum) ^^^ s.finalXor)
            &&& s.mask)) })) ∧
  (∀ (w : Word) (s : State), w.toNat / 2 ^ 29 = 6 → w.toNat % 2 ^ 29 ≠ 0 →
    executeWord w s = .next { s with response := some 0x80000100 }) ∧
  (∀ (r : Bool) (wd : BitVec 4) (p i x : Byte) (s t u : State), 1 ≤ wd.toNat → wd.toNat ≤ 8 →
    exec (.create r wd p i x) s = .next t → exec .getCrc t = .next u →
    u.response = some (BitVec.zeroExtend 32
      (((if wd.toNat < 8 ∧ r = true then i else t.sum) ^^^ x) &&& BitVec.ofNat 8 (2 ^ wd.toNat - 1))))

/-- The two reserved opcodes raise IllegalCommand whatever their other bits, and change no register (30_encoding R58,
60_exceptions R95). -/
def Obligations.ReservedOpcodesRaiseIllegalCommand : Prop :=
  ∀ (payload : BitVec 29) (s : State),
    exec (.reserved000 payload) s = .next { s with response := some 0x80000100 } ∧
    exec (.reserved111 payload) s = .next { s with response := some 0x80000100 }

/-! ## Errors -/

/-- 60_exceptions R97: raising an error writes no register, presents `0x80000000 | (code << 8)`, with the codes of R95,
and completes, so that once the host has accepted the response the engine takes the next command. -/
def Obligations.RaisingAnErrorWritesNoRegister : Prop :=
  ∀ (e : ErrorCause) (s : State), ∃ t code, raise e s = .next t ∧ s.sameRegisters t ∧
    code = (match e with
      | .illegalCommand => 1
      | .invalidWidth => 2
      | .notConfigured => 3
      | .tableIncomplete => 4) ∧
    t.response = some (0x80000000 ||| (BitVec.ofNat 32 code <<< 8)) ∧
    ∀ (w : Word) (ms : List HostMove), t.plan = .accept :: .issue w :: ms →
      ∃ u, step t = .next u ∧ u.cmdReady = true ∧ u.command = some w ∧ s.sameRegisters u

/-- 60_exceptions R96: the first check that fails is the one reported: decode; then InvalidWidth for CREATE; then
InvalidWidth and TableIncomplete for CREATE_T; NotConfigured for DIGEST, RESET and GET_CRC; nothing for TLOAD. -/
def Obligations.ErrorsAreCheckedInOrder : Prop :=
  ∀ (w : Word) (s : State) (ms : List HostMove), s.plan = .issue w :: ms → s.response = none →
    ∃ t r, step s = .next t ∧ t.response = some r ∧
      match decode w with
      | .illegal _ => r = 0x80000100
      | .command (.reserved000 _) => r = 0x80000100
      | .command (.reserved111 _) => r = 0x80000100
      | .command (.create _ wd _ _ _) => r = if 1 ≤ wd.toNat ∧ wd.toNat ≤ 8 then 0 else 0x80000200
      | .command (.createT _ wd _ _) =>
        (wd.toNat ≠ 8 → r = 0x80000200) ∧
        (wd.toNat = 8 → (∃ k : Byte, entry s.stageLoaded k = false) → r = 0x80000400) ∧
        (wd.toNat = 8 → (∀ k : Byte, entry s.stageLoaded k = true) → r = 0)
      | .command (.tload _ _) => r = 0
      | .command (.digest _) => r = if s.cfgValid = true then 0 else 0x80000300
      | .command .reset => r = if s.cfgValid = true then 0 else 0x80000300
      | .command .getCrc => s.cfgValid = false → r = 0x80000300

/-- An error leaves no trace: once its response has been accepted, every register is as if the command had not been
issued, and an engine built earlier keeps running (60_exceptions R97, R98, 40_normalizer R70). -/
def Obligations.AnErrorLeavesNoTrace : Prop :=
  ∀ (s t : State) (w r : Word) (ms : List HostMove), s.plan = .issue w :: .accept :: ms → s.response = none →
    step s = .next t → t.response = some r → isErrorWord r = true →
    step t = .next { s with plan := ms, observed := s.observed ++ [r] }

/-- 10_state R18: a successful CREATE or CREATE_T writes CFG_VALID = 1, no command writes 0 and only power-on reset does, and
DIGEST, RESET and GET_CRC raise NotConfigured while it is 0. -/
def Obligations.CfgValidGuardsTheDigestEngine : Prop :=
  (∀ (i : Instr) (s t : State), exec i s = .next t →
    (s.cfgValid = true → t.cfgValid = true) ∧
    (s.cfgValid = false → t.cfgValid = true → t.response = some 0 ∧
      ((∃ r wd p j x, i = .create r wd p j x) ∨ ∃ r wd j x, i = .createT r wd j x))) ∧
  (∀ s t : State, step s = .next t → s.cfgValid = true → t.cfgValid = false → s.rstN = false) ∧
  (∀ (r : Bool) (wd : BitVec 4) (p i x : Byte) (s t : State),
    (exec (.create r wd p i x) s = .next t ∨ exec (.createT r wd i x) s = .next t) → t.response = some 0 →
    t.cfgValid = true) ∧
  (∀ (s : State) (b : Byte), s.cfgValid = false →
    exec (.digest b) s = .next { s with response := some 0x80000300 } ∧
    exec .reset s = .next { s with response := some 0x80000300 } ∧
    exec .getCrc s = .next { s with response := some 0x80000300 })

/-! ## What each command may write -/

/-- No command but CREATE and CREATE_T writes a configuration register or LUT (10_state R17, R29, R30); DIGEST and RESET
write SUM alone, TLOAD writes STAGE and STAGE_LOADED alone, GET_CRC and the reserved opcodes write no register; the host's
plan and record are never written by a command. -/
def Obligations.CommandsWriteOnlyTheirRegisters : Prop :=
  ∀ (i : Instr) (s t : State), exec i s = .next t →
    t.plan = s.plan ∧ t.observed = s.observed ∧
    match i with
    | .create _ _ _ _ _ => t.stage = s.stage ∧ t.stageLoaded = s.stageLoaded
    | .createT _ _ _ _ => t.stage = s.stage ∧ t.stageLoaded = s.stageLoaded
    | .tload _ _ => s.sameEngine t ∧ t.lut = s.lut
    | .digest _ => s.sameRegisters { t with sum := s.sum }
    | .reset => s.sameRegisters { t with sum := s.sum }
    | .getCrc => s.sameRegisters t
    | .reserved000 _ => s.sameRegisters t
    | .reserved111 _ => s.sameRegisters t

/-- LUT changes only as a whole table, by a successful CREATE at width 8 or a successful CREATE_T (10_state R30,
41_table_synthesizer R78); over steps, power-on reset apart. -/
def Obligations.LutIsImmutableAfterConstruction : Prop :=
  ∀ s t : State, s.rstN = true → step s = .next t → t.lut ≠ s.lut →
    t.cfgValid = true ∧ t.byTable = true ∧ t.width = 8 ∧ t.response = some 0 ∧
    ∃ w, s.command = some w ∧
      ((∃ r p i x, decode w = .command (.create r 8 p i x) ∧ t.lut = buildTable p r) ∨
       (∃ r i x, decode w = .command (.createT r 8 i x) ∧ t.lut = s.stage))

/-- 20_memory R48: LUT is a copy: a successful CREATE_T leaves LUT equal to STAGE, a TLOAD changes STAGE and never LUT, a CREATE never changes STAGE, no command but a
construction changes the table, and no command changes the commands still to come. -/
def Obligations.LutIsACopyOfStage : Prop :=
  (∀ (r : Bool) (i x : Byte) (s t : State), exec (.createT r 8 i x) s = .next t → t.response = some 0 →
    t.lut = s.stage ∧ t.stage = s.stage) ∧
  (∀ (r : Bool) (i x k v : Byte) (s t u : State), exec (.createT r 8 i x) s = .next t →
    exec (.tload k v) t = .next u → u.lut = t.lut ∧ entry u.stage k = v) ∧
  (∀ (r : Bool) (wd : BitVec 4) (p i x : Byte) (s t : State), exec (.create r wd p i x) s = .next t →
    t.stage = s.stage) ∧
  (∀ (i : Instr) (s t : State), exec i s = .next t → t.lut ≠ s.lut →
    (∃ r wd p j x, i = .create r wd p j x) ∨ ∃ r wd j x, i = .createT r wd j x) ∧
  (∀ (i : Instr) (s t : State), exec i s = .next t → t.plan = s.plan)

/-- 20_memory R43: GET_CRC has no side effect; RESET and TLOAD are idempotent; a successful CREATE with the same operands
leaves the same S1 to S10 from any state, and the same LUT at width 8, and a successful CREATE_T with the same operands and
STAGE too; DIGEST is not idempotent. -/
def Obligations.CommandsRepeatAsTheSpecSays : Prop :=
  (∀ s t : State, exec .getCrc s = .next t → s.sameRegisters t) ∧
  (∀ s t : State, exec .reset s = .next t → exec .reset t = .next t) ∧
  (∀ (k v : Byte) (s t : State), exec (.tload k v) s = .next t → exec (.tload k v) t = .next t) ∧
  (∀ (r : Bool) (wd : BitVec 4) (p i x : Byte) (s s' t t' : State),
    exec (.create r wd p i x) s = .next t → exec (.create r wd p i x) s' = .next t' → t.response = some 0 →
    t.sameEngine t' ∧ (wd.toNat = 8 → t.lut = t'.lut)) ∧
  (∀ (r : Bool) (wd : BitVec 4) (i x : Byte) (s s' t t' : State), s.stage = s'.stage →
    exec (.createT r wd i x) s = .next t → exec (.createT r wd i x) s' = .next t' →
    t.response = some 0 → t'.response = some 0 → t.sameEngine t' ∧ t.lut = t'.lut) ∧
  (∃ (b : Byte) (s t u : State), exec (.digest b) s = .next t ∧ exec (.digest b) t = .next u ∧ u.sum ≠ t.sum)

/-- After power-on reset the host boots an engine by CREATE, or by TLOADs that cover every index, in any order, and then
CREATE_T; before that DIGEST, RESET and GET_CRC raise NotConfigured, and CREATE_T of width 8 raises TableIncomplete while an
entry is missing (70_reset_and_hazards R111). -/
def Obligations.BootBuildsAnEngine : Prop :=
  (∀ (r : Bool) (wd : BitVec 4) (p i x : Byte) (s : State), 1 ≤ wd.toNat → wd.toNat ≤ 8 →
    ∃ t, exec (.create r wd p i x) s = .next t ∧ t.response = some 0 ∧ t.cfgValid = true) ∧
  (∀ (loads : List (Byte × Byte)) (r : Bool) (i x : Byte) (s : State), (∀ k : Byte, ∃ v, (k, v) ∈ loads) →
    ∃ t, executeAll (loads.map (fun e => .tload e.1 e.2) ++ [.createT r 8 i x]) s = .next t ∧
      t.response = some 0 ∧ t.cfgValid = true) ∧
  (∀ (loads : List (Byte × Byte)) (k b : Byte) (r : Bool) (i x : Byte), (∀ v, (k, v) ∉ loads) →
    ∃ t u, executeAll (loads.map fun e => .tload e.1 e.2) State.reset = .next t ∧
      exec (.createT r 8 i x) t = .next { t with response := some 0x80000400 } ∧
      exec (.digest b) t = .next u ∧ u.response = some 0x80000300)

/-! ## Reflection, masks and tables -/

/-- 40_normalizer R62: for h = 1 << (w-1), bit k of `reflect_bits(h, n)` is bit w-1-k of n below w, and 0 from w on. -/
def Obligations.ReflectBitsMirrorsTheLowBits : Prop :=
  ∀ (w : Nat) (n : Byte) (k : Nat), 1 ≤ w → w ≤ 8 → k < 8 →
    (reflectBits (BitVec.ofNat 8 (2 ^ (w - 1))) n).getLsbD k = (if k < w then n.getLsbD (w - 1 - k) else false)

/-- 40_normalizer R64: reflecting twice gives n back for every n below 2h, and `n & (2h - 1)` for every n. -/
def Obligations.ReflectionIsAnInvolution : Prop :=
  ∀ (w : Nat) (n : Byte), 1 ≤ w → w ≤ 8 →
    let h : Byte := BitVec.ofNat 8 (2 ^ (w - 1))
    (n.toNat < 2 * 2 ^ (w - 1) → reflectBits h (reflectBits h n) = n) ∧
    reflectBits h (reflectBits h n) = n &&& BitVec.ofNat 8 (2 * 2 ^ (w - 1) - 1)

/-- 40_normalizer R66: HIGH_BIT = 1 << (width-1) and MASK = ((HIGH_BIT-1)<<1) | 1 for width 1..8, without overflow. -/
def Obligations.HighBitAndMaskOfEveryWidth : Prop :=
  ∀ wd : BitVec 4, 1 ≤ wd.toNat → wd.toNat ≤ 8 →
    (highBitOf wd).toNat = 2 ^ (wd.toNat - 1) ∧
    (maskOf (highBitOf wd)).toNat = ((2 ^ (wd.toNat - 1) - 1) * 2) ||| 1 ∧
    (maskOf (highBitOf wd)).toNat = 2 ^ wd.toNat - 1

/-- 41_table_synthesizer R75: entry i of the normal table is i shifted left 8 times, POLY XORed in whenever the bit leaving
the top is set. -/
def Obligations.NormalTableShiftsLeft : Prop :=
  ∀ p i : Byte, entry (buildTableNormal p) i =
    (List.range 8).foldl (fun (v : Byte) _ => if 128 ≤ v.toNat then (v <<< 1) ^^^ p else v <<< 1) i

/-- 41_table_synthesizer R76: entry i of the reflected table is i shifted right 8 times, the operand as given XORed in after
the shift whenever the bit leaving the bottom is set. -/
def Obligations.ReflectedTableShiftsRight : Prop :=
  ∀ p i : Byte, entry (buildTableReflected p) i =
    (List.range 8).foldl (fun (v : Byte) _ => if v.toNat % 2 = 1 then (v >>> 1) ^^^ p else v >>> 1) i

/-- 41_table_synthesizer R79: the four identities between the tables and the bitwise loop. -/
def Obligations.TableIdentities : Prop :=
  (∀ p i : Byte, entry (buildTableNormal p) i = digestLoop 0x80 p i 0) ∧
  (∀ p i : Byte, entry (buildTableReflected p) i =
    reflectBits 0x80 (digestLoop 0x80 (reflectBits 0x80 p) (reflectBits 0x80 i) 0)) ∧
  (∀ p a b : Byte,
    entry (buildTableNormal p) (a ^^^ b) = entry (buildTableNormal p) a ^^^ entry (buildTableNormal p) b ∧
    entry (buildTableReflected p) (a ^^^ b) = entry (buildTableReflected p) a ^^^ entry (buildTableReflected p) b ∧
    entry (buildTableNormal p) 0 = 0 ∧ entry (buildTableReflected p) 0 = 0) ∧
  (∀ p : Byte, entry (buildTableNormal p) 1 = p ∧ entry (buildTableReflected p) 0x80 = p)

/-- A table loaded by TLOADALL and taken by CREATE_T gives the same S1 to S11 as CREATE with the polynomial it was built
from, from any state (41_table_synthesizer R77, 40_normalizer R72). -/
def Obligations.StagedTableEqualsSynthesizedTable : Prop :=
  ∀ (r : Bool) (p i x : Byte) (s : State), ∃ t u,
    executeAll (tloadAll (buildTable p r) ++ [.createT r 8 i x]) s = .next t ∧
    exec (.create r 8 p i x) s = .next u ∧ t.sameEngine u ∧ t.lut = u.lut

/-! ## Runs of DIGEST -/

/-- 42_digest_engine R86: digesting a sequence is digesting its bytes in order, so digesting two parts one after the other is
digesting their concatenation; the empty sequence changes nothing. -/
def Obligations.DigestIsIncremental : Prop :=
  (∀ s : State, digestBytes [] s = .next s) ∧
  (∀ (a b : List Byte) (s t : State), digestBytes a s = .next t → digestBytes (a ++ b) s = digestBytes b t) ∧
  (∀ (bs : List Byte) (s : State), ∃ t, digestBytes bs s = .next t ∧
    t = { s with sum := t.sum, response := t.response })

/-- RESET after any digests restores the checksum that GET_CRC showed right after the construction (42_digest_engine R92,
R87). -/
def Obligations.ResetRoundTrip : Prop :=
  ∀ (bs : List Byte) (s t u v a b : State) (c : Instr),
    ((∃ r wd p i x, c = .create r wd p i x) ∨ ∃ r wd i x, c = .createT r wd i x) →
    exec c s = .next t → t.response = some 0 →
    digestBytes bs t = .next u → exec .reset u = .next v →
    exec .getCrc t = .next a → exec .getCrc v = .next b → b.response = a.response

/-- The checksum ANDed with the complement of MASK is zero (42_digest_engine R92). -/
def Obligations.ChecksumIsMasked : Prop :=
  ∀ s t : State, s.cfgValid = true → exec .getCrc s = .next t →
    ∃ c : Byte, t.response = some (c.zeroExtend 32) ∧ c &&& ~~~s.mask = 0

/-- 42_digest_engine R93: the table engine of width 8 and the width-8 bitwise datapath give the same checksum for every
polynomial, FINAL_XOR and byte sequence, when REFLECT = 0, and when REFLECT = 1 and the initial value is one of the 16
palindromes; the spec's counterexample shows that they differ for another initial value. -/
def Obligations.TableAndBitwiseDatapathsAgree : Prop :=
  (∀ (r : Bool) (p i x : Byte) (bs : List Byte) (s t t' c b b' : State),
    (r = false ∨ i ∈ [0x00, 0x18, 0x24, 0x3C, 0x42, 0x5A, 0x66, 0x7E, 0x81, 0x99, 0xA5, 0xBD, 0xC3, 0xDB, 0xE7, 0xFF]) →
    exec (.create r 8 p i x) s = .next t → digestBytes bs t = .next t' → exec .getCrc t' = .next c →
    digestBytes bs (bitwiseEngine8 r p i x s) = .next b → exec .getCrc b = .next b' →
    c.response = b'.response) ∧
  (∃ t t' c b b' : State,
    exec (.create true 8 0x9C 0x01 0) State.reset = .next t ∧
    digestBytes [0x31, 0x32, 0x33, 0x34, 0x35, 0x36, 0x37, 0x38, 0x39] t = .next t' ∧
    exec .getCrc t' = .next c ∧ c.response = some 0x1D ∧
    digestBytes [0x31, 0x32, 0x33, 0x34, 0x35, 0x36, 0x37, 0x38, 0x39] (bitwiseEngine8 true 0x9C 0x01 0 State.reset)
      = .next b ∧
    exec .getCrc b = .next b' ∧ b'.response = some 0x9A)

/-- 42_digest_engine R91: for every width and byte sequence the checksum depends only on the low WIDTH bits of the polynomial,
the initial value and FINAL_XOR, and on no bit of SUM at or above WIDTH. -/
def Obligations.UpperOperandBitsAreUnobservable : Prop :=
  (∀ (r : Bool) (wd : BitVec 4) (p i x p' i' x' : Byte) (bs : List Byte) (s s' t t' u u' c c' : State),
    1 ≤ wd.toNat → wd.toNat ≤ 8 →
    p.toNat % 2 ^ wd.toNat = p'.toNat % 2 ^ wd.toNat →
    i.toNat % 2 ^ wd.toNat = i'.toNat % 2 ^ wd.toNat →
    x.toNat % 2 ^ wd.toNat = x'.toNat % 2 ^ wd.toNat →
    exec (.create r wd p i x) s = .next t → exec (.create r wd p' i' x') s' = .next t' →
    digestBytes bs t = .next u → digestBytes bs t' = .next u' →
    exec .getCrc u = .next c → exec .getCrc u' = .next c' → c.response = c'.response) ∧
  (∀ (s u u' c c' : State) (v : Byte) (bs : List Byte), s.cfgValid = true → s.Consistent →
    v.toNat % 2 ^ s.width.toNat = s.sum.toNat % 2 ^ s.width.toNat →
    digestBytes bs s = .next u → digestBytes bs { s with sum := v } = .next u' →
    exec .getCrc u = .next c → exec .getCrc u' = .next c' → c.response = c'.response)

/-! ## Invariants and noninterference -/

/-- Every step keeps the invariant: a built engine's WIDTH is 1..8, HIGH_BIT and MASK are those of WIDTH, BY_TABLE = 1 exactly
at width 8, POLY is 0 on the table path and has no bit at or above WIDTH on the bitwise reflected path, and every response,
waiting or accepted, has the form of 30_encoding R59 (10_state R19, R21, R22, R25, R26). -/
def Obligations.EveryStepKeepsTheInvariant : Prop :=
  ∀ s t : State, s.Inv → step s = .next t → t.Inv

/-- The invariant holds at reset. -/
def Obligations.ResetMeetsTheInvariant : Prop := State.reset.Inv

/-- What the spec leaves unspecified after reset is never seen: two states that agree on all but unreadable registers (S2 to
S11 before a construction, LUT without a table engine, STAGE entries never loaded) step to states that agree again, with
equal responses (10_state R32, R33). -/
def Obligations.UnspecifiedRegistersAreUnobservable : Prop :=
  ∀ s t s' : State, s.Agree t → step s = .next s' →
    ∃ t', step t = .next t' ∧ s'.Agree t' ∧ s'.response = t'.response ∧ s'.observed = t'.observed

/-- The observation of a whole run does not depend on the values that the model gives the registers S2 to S12 at reset, which
the spec leaves unspecified (10_state R33; the values are the model's choice, log entries 1 and 2). -/
def Obligations.ObservationIgnoresUnspecifiedResetValues : Prop :=
  ∀ (s : State) (n : Nat) (ws : List Word), s.cfgValid = false → (∀ k : Byte, entry s.stageLoaded k = false) →
    s.response = none → s.observed = [] → s.plan = programMoves ws →
    ∃ t u, Sys2Proof.core.run n s = .next t ∧
      Sys2Proof.core.run n { State.reset with plan := programMoves ws } = .next u ∧ t.observed = u.observed
end

