-- ==== Sys2Proof/Laws/Operands.lean ====
section
/-! SUPPORT. The laws of the operand computations: the width check, the flags it decides, and the loops of reflection and of
the bitwise path as rounds (40_normalizer R62, R70, 42_digest_engine R84). -/

namespace Sys2Proof.Machine

/-- The legal widths are 1..8 (40_normalizer R70). -/
theorem widthLegal_iff (wd : BitVec 4) : widthLegal wd = true ↔ 1 ≤ wd.toNat ∧ wd.toNat ≤ 8 := by
  unfold widthLegal Config.registerWidth
  rw [Bool.and_eq_true, decide_eq_true_iff, decide_eq_true_iff]

/-- BY_TABLE is set exactly at width 8, for a legal width (10_state R21). -/
theorem byTableOf_iff {wd : BitVec 4} (h : widthLegal wd = true) : byTableOf wd = true ↔ wd.toNat = 8 := by
  rw [widthLegal_iff] at h
  simp only [byTableOf, Config.registerWidth, beq_iff_eq]
  omega

@[simp] theorem digestPath_table (r : Bool) : digestPath true r = .table := rfl
@[simp] theorem digestPath_normal : digestPath false false = .bitwiseNormal := rfl
@[simp] theorem digestPath_reflected : digestPath false true = .bitwiseReflected := rfl

@[simp] theorem startingSum_false (h i : Byte) : startingSum false h i = i := rfl
@[simp] theorem startingSum_true (h i : Byte) : startingSum true h i = reflectBits h i := rfl
@[simp] theorem bitwisePoly_false (h p : Byte) : bitwisePoly false h p = p := rfl
@[simp] theorem bitwisePoly_true (h p : Byte) : bitwisePoly true h p = reflectBits h p := rfl
@[simp] theorem bitwiseByte_false (b : Byte) : bitwiseByte false b = b := rfl
@[simp] theorem bitwiseByte_true (b : Byte) : bitwiseByte true b = reflectBits 0x80 b := rfl

/-- The bitwise loop as its eight rounds, from input bit 7 to input bit 0 (42_digest_engine R84). -/
theorem digestLoop_eq_rounds (hb p n sum : Byte) :
    digestLoop hb p n sum =
      digestRound hb p n 0x01 (digestRound hb p n 0x02 (digestRound hb p n 0x04 (digestRound hb p n 0x08
        (digestRound hb p n 0x10 (digestRound hb p n 0x20 (digestRound hb p n 0x40 (digestRound hb p n 0x80 sum))))))) :=
  rfl

end Sys2Proof.Machine
end

