-- ==== Sys2Proof/Laws/State.lean ====
section
/-! SUPPORT. What each named update of the state leaves in each field, by `rfl`, for simp: no later proof unfolds an update. -/

namespace Sys2Proof.Machine

variable (s : State)

/-! ### stageWrite -/

@[simp] theorem State.stageWrite_cfgValid (i v : Byte) : (s.stageWrite i v).cfgValid = s.cfgValid := rfl
@[simp] theorem State.stageWrite_width (i v : Byte) : (s.stageWrite i v).width = s.width := rfl
@[simp] theorem State.stageWrite_reflect (i v : Byte) : (s.stageWrite i v).reflect = s.reflect := rfl
@[simp] theorem State.stageWrite_byTable (i v : Byte) : (s.stageWrite i v).byTable = s.byTable := rfl
@[simp] theorem State.stageWrite_poly (i v : Byte) : (s.stageWrite i v).poly = s.poly := rfl
@[simp] theorem State.stageWrite_initial (i v : Byte) : (s.stageWrite i v).initial = s.initial := rfl
@[simp] theorem State.stageWrite_finalXor (i v : Byte) : (s.stageWrite i v).finalXor = s.finalXor := rfl
@[simp] theorem State.stageWrite_highBit (i v : Byte) : (s.stageWrite i v).highBit = s.highBit := rfl
@[simp] theorem State.stageWrite_mask (i v : Byte) : (s.stageWrite i v).mask = s.mask := rfl
@[simp] theorem State.stageWrite_sum (i v : Byte) : (s.stageWrite i v).sum = s.sum := rfl
@[simp] theorem State.stageWrite_lut (i v : Byte) : (s.stageWrite i v).lut = s.lut := rfl
@[simp] theorem State.stageWrite_stage (i v : Byte) : (s.stageWrite i v).stage = setEntry s.stage i v := rfl
@[simp] theorem State.stageWrite_stageLoaded (i v : Byte) : (s.stageWrite i v).stageLoaded = setEntry s.stageLoaded i true := rfl
@[simp] theorem State.stageWrite_response (i v : Byte) : (s.stageWrite i v).response = s.response := rfl
@[simp] theorem State.stageWrite_plan (i v : Byte) : (s.stageWrite i v).plan = s.plan := rfl
@[simp] theorem State.stageWrite_observed (i v : Byte) : (s.stageWrite i v).observed = s.observed := rfl

/-! ### normalize -/

@[simp] theorem State.normalize_cfgValid (r : Bool) (wd : BitVec 4) (i x : Byte) : (s.normalize r wd i x).cfgValid = s.cfgValid := rfl
@[simp] theorem State.normalize_width (r : Bool) (wd : BitVec 4) (i x : Byte) : (s.normalize r wd i x).width = wd := rfl
@[simp] theorem State.normalize_reflect (r : Bool) (wd : BitVec 4) (i x : Byte) : (s.normalize r wd i x).reflect = r := rfl
@[simp] theorem State.normalize_byTable (r : Bool) (wd : BitVec 4) (i x : Byte) : (s.normalize r wd i x).byTable = s.byTable := rfl
@[simp] theorem State.normalize_poly (r : Bool) (wd : BitVec 4) (i x : Byte) : (s.normalize r wd i x).poly = s.poly := rfl
@[simp] theorem State.normalize_initial (r : Bool) (wd : BitVec 4) (i x : Byte) : (s.normalize r wd i x).initial = i := rfl
@[simp] theorem State.normalize_finalXor (r : Bool) (wd : BitVec 4) (i x : Byte) : (s.normalize r wd i x).finalXor = x := rfl
@[simp] theorem State.normalize_highBit (r : Bool) (wd : BitVec 4) (i x : Byte) : (s.normalize r wd i x).highBit = highBitOf wd := rfl
@[simp] theorem State.normalize_mask (r : Bool) (wd : BitVec 4) (i x : Byte) : (s.normalize r wd i x).mask = maskOf (highBitOf wd) := rfl
@[simp] theorem State.normalize_sum (r : Bool) (wd : BitVec 4) (i x : Byte) : (s.normalize r wd i x).sum = startingSum r (highBitOf wd) i := rfl
@[simp] theorem State.normalize_lut (r : Bool) (wd : BitVec 4) (i x : Byte) : (s.normalize r wd i x).lut = s.lut := rfl
@[simp] theorem State.normalize_stage (r : Bool) (wd : BitVec 4) (i x : Byte) : (s.normalize r wd i x).stage = s.stage := rfl
@[simp] theorem State.normalize_stageLoaded (r : Bool) (wd : BitVec 4) (i x : Byte) : (s.normalize r wd i x).stageLoaded = s.stageLoaded := rfl
@[simp] theorem State.normalize_response (r : Bool) (wd : BitVec 4) (i x : Byte) : (s.normalize r wd i x).response = s.response := rfl
@[simp] theorem State.normalize_plan (r : Bool) (wd : BitVec 4) (i x : Byte) : (s.normalize r wd i x).plan = s.plan := rfl
@[simp] theorem State.normalize_observed (r : Bool) (wd : BitVec 4) (i x : Byte) : (s.normalize r wd i x).observed = s.observed := rfl

/-! ### installTable -/

@[simp] theorem State.installTable_cfgValid (t : Indexed Byte) : (s.installTable t).cfgValid = s.cfgValid := rfl
@[simp] theorem State.installTable_width (t : Indexed Byte) : (s.installTable t).width = s.width := rfl
@[simp] theorem State.installTable_reflect (t : Indexed Byte) : (s.installTable t).reflect = s.reflect := rfl
@[simp] theorem State.installTable_byTable (t : Indexed Byte) : (s.installTable t).byTable = true := rfl
@[simp] theorem State.installTable_poly (t : Indexed Byte) : (s.installTable t).poly = 0 := rfl
@[simp] theorem State.installTable_initial (t : Indexed Byte) : (s.installTable t).initial = s.initial := rfl
@[simp] theorem State.installTable_finalXor (t : Indexed Byte) : (s.installTable t).finalXor = s.finalXor := rfl
@[simp] theorem State.installTable_highBit (t : Indexed Byte) : (s.installTable t).highBit = s.highBit := rfl
@[simp] theorem State.installTable_mask (t : Indexed Byte) : (s.installTable t).mask = s.mask := rfl
@[simp] theorem State.installTable_sum (t : Indexed Byte) : (s.installTable t).sum = s.sum := rfl
@[simp] theorem State.installTable_lut (t : Indexed Byte) : (s.installTable t).lut = t := rfl
@[simp] theorem State.installTable_stage (t : Indexed Byte) : (s.installTable t).stage = s.stage := rfl
@[simp] theorem State.installTable_stageLoaded (t : Indexed Byte) : (s.installTable t).stageLoaded = s.stageLoaded := rfl
@[simp] theorem State.installTable_response (t : Indexed Byte) : (s.installTable t).response = s.response := rfl
@[simp] theorem State.installTable_plan (t : Indexed Byte) : (s.installTable t).plan = s.plan := rfl
@[simp] theorem State.installTable_observed (t : Indexed Byte) : (s.installTable t).observed = s.observed := rfl

/-! ### installPoly -/

@[simp] theorem State.installPoly_cfgValid (p : Byte) : (s.installPoly p).cfgValid = s.cfgValid := rfl
@[simp] theorem State.installPoly_width (p : Byte) : (s.installPoly p).width = s.width := rfl
@[simp] theorem State.installPoly_reflect (p : Byte) : (s.installPoly p).reflect = s.reflect := rfl
@[simp] theorem State.installPoly_byTable (p : Byte) : (s.installPoly p).byTable = false := rfl
@[simp] theorem State.installPoly_poly (p : Byte) : (s.installPoly p).poly = p := rfl
@[simp] theorem State.installPoly_initial (p : Byte) : (s.installPoly p).initial = s.initial := rfl
@[simp] theorem State.installPoly_finalXor (p : Byte) : (s.installPoly p).finalXor = s.finalXor := rfl
@[simp] theorem State.installPoly_highBit (p : Byte) : (s.installPoly p).highBit = s.highBit := rfl
@[simp] theorem State.installPoly_mask (p : Byte) : (s.installPoly p).mask = s.mask := rfl
@[simp] theorem State.installPoly_sum (p : Byte) : (s.installPoly p).sum = s.sum := rfl
@[simp] theorem State.installPoly_lut (p : Byte) : (s.installPoly p).lut = s.lut := rfl
@[simp] theorem State.installPoly_stage (p : Byte) : (s.installPoly p).stage = s.stage := rfl
@[simp] theorem State.installPoly_stageLoaded (p : Byte) : (s.installPoly p).stageLoaded = s.stageLoaded := rfl
@[simp] theorem State.installPoly_response (p : Byte) : (s.installPoly p).response = s.response := rfl
@[simp] theorem State.installPoly_plan (p : Byte) : (s.installPoly p).plan = s.plan := rfl
@[simp] theorem State.installPoly_observed (p : Byte) : (s.installPoly p).observed = s.observed := rfl

/-! ### configure -/

@[simp] theorem State.configure_cfgValid : s.configure.cfgValid = true := rfl
@[simp] theorem State.configure_width : s.configure.width = s.width := rfl
@[simp] theorem State.configure_reflect : s.configure.reflect = s.reflect := rfl
@[simp] theorem State.configure_byTable : s.configure.byTable = s.byTable := rfl
@[simp] theorem State.configure_poly : s.configure.poly = s.poly := rfl
@[simp] theorem State.configure_initial : s.configure.initial = s.initial := rfl
@[simp] theorem State.configure_finalXor : s.configure.finalXor = s.finalXor := rfl
@[simp] theorem State.configure_highBit : s.configure.highBit = s.highBit := rfl
@[simp] theorem State.configure_mask : s.configure.mask = s.mask := rfl
@[simp] theorem State.configure_sum : s.configure.sum = s.sum := rfl
@[simp] theorem State.configure_lut : s.configure.lut = s.lut := rfl
@[simp] theorem State.configure_stage : s.configure.stage = s.stage := rfl
@[simp] theorem State.configure_stageLoaded : s.configure.stageLoaded = s.stageLoaded := rfl
@[simp] theorem State.configure_response : s.configure.response = s.response := rfl
@[simp] theorem State.configure_plan : s.configure.plan = s.plan := rfl
@[simp] theorem State.configure_observed : s.configure.observed = s.observed := rfl

/-! ### setSum -/

@[simp] theorem State.setSum_cfgValid (v : Byte) : (s.setSum v).cfgValid = s.cfgValid := rfl
@[simp] theorem State.setSum_width (v : Byte) : (s.setSum v).width = s.width := rfl
@[simp] theorem State.setSum_reflect (v : Byte) : (s.setSum v).reflect = s.reflect := rfl
@[simp] theorem State.setSum_byTable (v : Byte) : (s.setSum v).byTable = s.byTable := rfl
@[simp] theorem State.setSum_poly (v : Byte) : (s.setSum v).poly = s.poly := rfl
@[simp] theorem State.setSum_initial (v : Byte) : (s.setSum v).initial = s.initial := rfl
@[simp] theorem State.setSum_finalXor (v : Byte) : (s.setSum v).finalXor = s.finalXor := rfl
@[simp] theorem State.setSum_highBit (v : Byte) : (s.setSum v).highBit = s.highBit := rfl
@[simp] theorem State.setSum_mask (v : Byte) : (s.setSum v).mask = s.mask := rfl
@[simp] theorem State.setSum_sum (v : Byte) : (s.setSum v).sum = v := rfl
@[simp] theorem State.setSum_lut (v : Byte) : (s.setSum v).lut = s.lut := rfl
@[simp] theorem State.setSum_stage (v : Byte) : (s.setSum v).stage = s.stage := rfl
@[simp] theorem State.setSum_stageLoaded (v : Byte) : (s.setSum v).stageLoaded = s.stageLoaded := rfl
@[simp] theorem State.setSum_response (v : Byte) : (s.setSum v).response = s.response := rfl
@[simp] theorem State.setSum_plan (v : Byte) : (s.setSum v).plan = s.plan := rfl
@[simp] theorem State.setSum_observed (v : Byte) : (s.setSum v).observed = s.observed := rfl

/-! ### present -/

@[simp] theorem State.present_cfgValid (r : Word) : (s.present r).cfgValid = s.cfgValid := rfl
@[simp] theorem State.present_width (r : Word) : (s.present r).width = s.width := rfl
@[simp] theorem State.present_reflect (r : Word) : (s.present r).reflect = s.reflect := rfl
@[simp] theorem State.present_byTable (r : Word) : (s.present r).byTable = s.byTable := rfl
@[simp] theorem State.present_poly (r : Word) : (s.present r).poly = s.poly := rfl
@[simp] theorem State.present_initial (r : Word) : (s.present r).initial = s.initial := rfl
@[simp] theorem State.present_finalXor (r : Word) : (s.present r).finalXor = s.finalXor := rfl
@[simp] theorem State.present_highBit (r : Word) : (s.present r).highBit = s.highBit := rfl
@[simp] theorem State.present_mask (r : Word) : (s.present r).mask = s.mask := rfl
@[simp] theorem State.present_sum (r : Word) : (s.present r).sum = s.sum := rfl
@[simp] theorem State.present_lut (r : Word) : (s.present r).lut = s.lut := rfl
@[simp] theorem State.present_stage (r : Word) : (s.present r).stage = s.stage := rfl
@[simp] theorem State.present_stageLoaded (r : Word) : (s.present r).stageLoaded = s.stageLoaded := rfl
@[simp] theorem State.present_response (r : Word) : (s.present r).response = some r := rfl
@[simp] theorem State.present_plan (r : Word) : (s.present r).plan = s.plan := rfl
@[simp] theorem State.present_observed (r : Word) : (s.present r).observed = s.observed := rfl

/-! ### planned -/

@[simp] theorem State.planned_cfgValid (ms : List HostMove) : (s.planned ms).cfgValid = s.cfgValid := rfl
@[simp] theorem State.planned_width (ms : List HostMove) : (s.planned ms).width = s.width := rfl
@[simp] theorem State.planned_reflect (ms : List HostMove) : (s.planned ms).reflect = s.reflect := rfl
@[simp] theorem State.planned_byTable (ms : List HostMove) : (s.planned ms).byTable = s.byTable := rfl
@[simp] theorem State.planned_poly (ms : List HostMove) : (s.planned ms).poly = s.poly := rfl
@[simp] theorem State.planned_initial (ms : List HostMove) : (s.planned ms).initial = s.initial := rfl
@[simp] theorem State.planned_finalXor (ms : List HostMove) : (s.planned ms).finalXor = s.finalXor := rfl
@[simp] theorem State.planned_highBit (ms : List HostMove) : (s.planned ms).highBit = s.highBit := rfl
@[simp] theorem State.planned_mask (ms : List HostMove) : (s.planned ms).mask = s.mask := rfl
@[simp] theorem State.planned_sum (ms : List HostMove) : (s.planned ms).sum = s.sum := rfl
@[simp] theorem State.planned_lut (ms : List HostMove) : (s.planned ms).lut = s.lut := rfl
@[simp] theorem State.planned_stage (ms : List HostMove) : (s.planned ms).stage = s.stage := rfl
@[simp] theorem State.planned_stageLoaded (ms : List HostMove) : (s.planned ms).stageLoaded = s.stageLoaded := rfl
@[simp] theorem State.planned_response (ms : List HostMove) : (s.planned ms).response = s.response := rfl
@[simp] theorem State.planned_plan (ms : List HostMove) : (s.planned ms).plan = ms := rfl
@[simp] theorem State.planned_observed (ms : List HostMove) : (s.planned ms).observed = s.observed := rfl

/-! ### accepted -/

@[simp] theorem State.accepted_cfgValid (r : Word) : (s.accepted r).cfgValid = s.cfgValid := rfl
@[simp] theorem State.accepted_width (r : Word) : (s.accepted r).width = s.width := rfl
@[simp] theorem State.accepted_reflect (r : Word) : (s.accepted r).reflect = s.reflect := rfl
@[simp] theorem State.accepted_byTable (r : Word) : (s.accepted r).byTable = s.byTable := rfl
@[simp] theorem State.accepted_poly (r : Word) : (s.accepted r).poly = s.poly := rfl
@[simp] theorem State.accepted_initial (r : Word) : (s.accepted r).initial = s.initial := rfl
@[simp] theorem State.accepted_finalXor (r : Word) : (s.accepted r).finalXor = s.finalXor := rfl
@[simp] theorem State.accepted_highBit (r : Word) : (s.accepted r).highBit = s.highBit := rfl
@[simp] theorem State.accepted_mask (r : Word) : (s.accepted r).mask = s.mask := rfl
@[simp] theorem State.accepted_sum (r : Word) : (s.accepted r).sum = s.sum := rfl
@[simp] theorem State.accepted_lut (r : Word) : (s.accepted r).lut = s.lut := rfl
@[simp] theorem State.accepted_stage (r : Word) : (s.accepted r).stage = s.stage := rfl
@[simp] theorem State.accepted_stageLoaded (r : Word) : (s.accepted r).stageLoaded = s.stageLoaded := rfl
@[simp] theorem State.accepted_response (r : Word) : (s.accepted r).response = none := rfl
@[simp] theorem State.accepted_plan (r : Word) : (s.accepted r).plan = s.plan := rfl
@[simp] theorem State.accepted_observed (r : Word) : (s.accepted r).observed = s.observed ++ [r] := rfl

/-! ### powerOn -/

@[simp] theorem State.powerOn_plan : s.powerOn.plan = s.plan := rfl
@[simp] theorem State.powerOn_cfgValid : s.powerOn.cfgValid = State.reset.cfgValid := rfl
@[simp] theorem State.powerOn_width : s.powerOn.width = State.reset.width := rfl
@[simp] theorem State.powerOn_reflect : s.powerOn.reflect = State.reset.reflect := rfl
@[simp] theorem State.powerOn_byTable : s.powerOn.byTable = State.reset.byTable := rfl
@[simp] theorem State.powerOn_poly : s.powerOn.poly = State.reset.poly := rfl
@[simp] theorem State.powerOn_initial : s.powerOn.initial = State.reset.initial := rfl
@[simp] theorem State.powerOn_finalXor : s.powerOn.finalXor = State.reset.finalXor := rfl
@[simp] theorem State.powerOn_highBit : s.powerOn.highBit = State.reset.highBit := rfl
@[simp] theorem State.powerOn_mask : s.powerOn.mask = State.reset.mask := rfl
@[simp] theorem State.powerOn_sum : s.powerOn.sum = State.reset.sum := rfl
@[simp] theorem State.powerOn_lut : s.powerOn.lut = State.reset.lut := rfl
@[simp] theorem State.powerOn_stage : s.powerOn.stage = State.reset.stage := rfl
@[simp] theorem State.powerOn_stageLoaded : s.powerOn.stageLoaded = State.reset.stageLoaded := rfl
@[simp] theorem State.powerOn_response : s.powerOn.response = State.reset.response := rfl
@[simp] theorem State.powerOn_observed : s.powerOn.observed = State.reset.observed := rfl

end Sys2Proof.Machine
end

