-- ==== Sys2Proof/Laws/Ops.lean ====
section
/-! SUPPORT. The laws of the shared operations: indexed arrays (20_memory R35, R36), responses and errors (30_encoding R59,
60_exceptions R95, R97), the ports (70_reset_and_hazards R112). -/

namespace Sys2Proof.Machine

/-- Reading the entry just written gives the value written. -/
@[simp] theorem entry_setEntry_same {α : Type} (t : Indexed α) (i : Byte) (v : α) : entry (setEntry t i v) i = v := by
  simp [entry, setEntry]

/-- A write leaves every other entry alone. -/
theorem entry_setEntry_other {α : Type} (t : Indexed α) (i j : Byte) (v : α) (h : j ≠ i) :
    entry (setEntry t i v) j = entry t j := by
  have : i.toNat ≠ j.toNat := fun e => h (BitVec.eq_of_toNat_eq e.symm)
  simp [entry, setEntry, Vector.getElem_set_ne, this]

/-- Entry `i` of a tabulated array. -/
@[simp] theorem entry_tabulate {α : Type} (f : Byte → α) (i : Byte) : entry (tabulate f) i = f i := by
  simp [entry, tabulate]

/-- Two arrays with the same entries are equal. -/
theorem indexed_ext {α : Type} {t u : Indexed α} (h : ∀ i : Byte, entry t i = entry u i) : t = u := by
  refine Vector.ext fun k hk => ?_
  have := h (BitVec.ofNat 8 k)
  simpa [entry, Nat.mod_eq_of_lt hk] using this

/-- Every STAGE_LOADED bit is set exactly when the entry of every index says so (40_normalizer R72). -/
theorem stageComplete_iff (s : State) : s.stageComplete = true ↔ ∀ k : Byte, entry s.stageLoaded k = true := by
  simp only [State.stageComplete, List.all_eq_true, id]
  constructor
  · intro h k
    exact h _ (Vector.mem_toList_iff.2 (Vector.getElem_mem _))
  · intro h x hx
    obtain ⟨i, hi, rfl⟩ := Vector.getElem_of_mem (Vector.mem_toList_iff.1 hx)
    simpa [entry, Nat.mod_eq_of_lt hi] using h (BitVec.ofNat 8 i)

/-- Some entry was never loaded exactly when the staged table is not complete. -/
theorem stageComplete_eq_false_iff (s : State) :
    s.stageComplete = false ↔ ∃ k : Byte, entry s.stageLoaded k = false := by
  rw [← Bool.not_eq_true, stageComplete_iff]
  push Not
  simp

/-- Responding is presenting the word, nothing else. -/
theorem respond_eq (r : Word) (s : State) : respond r s = .next (s.present r) := rfl

/-- Raising an error is presenting its word, nothing else. -/
theorem raise_eq (e : ErrorCause) (s : State) : raise e s = .next (s.present (errorWord e)) := rfl

@[simp] theorem errorWord_illegalCommand : errorWord .illegalCommand = 0x80000100 := by decide
@[simp] theorem errorWord_invalidWidth : errorWord .invalidWidth = 0x80000200 := by decide
@[simp] theorem errorWord_notConfigured : errorWord .notConfigured = 0x80000300 := by decide
@[simp] theorem errorWord_tableIncomplete : errorWord .tableIncomplete = 0x80000400 := by decide
@[simp] theorem successWord_zero : successWord 0#8 = 0#32 := by decide

/-- A success word never has ERR = 1 (bit 31, 30_encoding R59). -/
@[simp] theorem successWord_err (data : Byte) : (successWord data)[31] = false := by
  simp [successWord]

/-- An error word always has ERR = 1 (bit 31, 30_encoding R59). -/
theorem errorWord_err (e : ErrorCause) : (errorWord e)[31] = true := by
  cases e <;> decide

/-- Two responses of GET_CRC are equal exactly when the checksums are. -/
@[simp] theorem successWord_inj (a b : Byte) : successWord a = successWord b ↔ a = b := by
  constructor
  · intro h
    have := congrArg (BitVec.setWidth 8) h
    simpa [successWord] using this
  · rintro rfl; rfl

/-- The engine is ready exactly when it is not in reset and no response waits. -/
theorem cmdReady_iff (s : State) : s.cmdReady = true ↔ s.rstN = true ∧ s.response = none := by
  simp [State.cmdReady]

/-- The host presents a word exactly when issuing it is its next move. -/
theorem command_eq_some_iff (s : State) (w : Word) :
    s.command = some w ↔ ∃ ms, s.plan = .issue w :: ms := by
  unfold State.command
  split <;> simp_all

/-- The host holds reset exactly when that is its next move. -/
theorem rstN_eq_false_iff (s : State) : s.rstN = false ↔ ∃ ms, s.plan = .powerOnReset :: ms := by
  cases h : s.plan <;> simp [State.rstN, h]

/-- The host is ready for a response exactly when accepting is its next move. -/
theorem rspReady_iff (s : State) : s.rspReady = true ↔ ∃ ms, s.plan = .accept :: ms := by
  cases h : s.plan <;> simp [State.rspReady, h]

end Sys2Proof.Machine
end

