-- ==== Sys2Proof/Laws/Exec.lean ====
section
/-! SUPPORT. Each meaning as one equation, and what a command and a step can do, said once: the provers cite these and do
not unfold `exec`, `executeWord` or `step`. -/

namespace Sys2Proof.Machine

/-- CREATE outside the legal widths (40_normalizer R70, R71). -/
theorem execCreate_illegal (r : Bool) (wd : BitVec 4) (p i x : Byte) (s : State) (h : widthLegal wd = false) :
    execCreate r wd p i x s = .next (s.present 0x80000200) := by
  simp [execCreate, h, raise_eq]

/-- CREATE at width 8 (40_normalizer R69, R71). -/
theorem execCreate_table (r : Bool) (p i x : Byte) (s : State) :
    execCreate r 8 p i x s =
      .next ((((s.normalize r 8 i x).installTable (buildTable p r)).configure).present 0) := rfl

/-- CREATE at a legal width below 8 (40_normalizer R68, R71). -/
theorem execCreate_bitwise (r : Bool) (wd : BitVec 4) (p i x : Byte) (s : State) (h : widthLegal wd = true)
    (h8 : wd.toNat ≠ 8) :
    execCreate r wd p i x s =
      .next ((((s.normalize r wd i x).installPoly (bitwisePoly r (highBitOf wd) p)).configure).present 0) := by
  have hb : byTableOf wd = false := by
    rw [← Bool.not_eq_true, byTableOf_iff h]; exact h8
  simp [execCreate, h, hb, respond_eq]

/-- CREATE_T at another width (40_normalizer R72). -/
theorem execCreateT_width (r : Bool) (wd : BitVec 4) (i x : Byte) (s : State) (h : wd.toNat ≠ 8) :
    execCreateT r wd i x s = .next (s.present 0x80000200) := by
  simp [execCreateT, Config.registerWidth, h, raise_eq]

/-- CREATE_T with an incomplete table (40_normalizer R72). -/
theorem execCreateT_incomplete (r : Bool) (i x : Byte) (s : State) (h : s.stageComplete = false) :
    execCreateT r 8 i x s = .next (s.present 0x80000400) := by
  simp [execCreateT, Config.registerWidth, h, raise_eq]

/-- CREATE_T with a complete table (40_normalizer R72). -/
theorem execCreateT_complete (r : Bool) (i x : Byte) (s : State) (h : s.stageComplete = true) :
    execCreateT r 8 i x s = .next ((((s.normalize r 8 i x).installTable s.stage).configure).present 0) := by
  simp [execCreateT, Config.registerWidth, h, respond_eq]

/-- TLOAD (40_normalizer R73). -/
theorem execTload_eq (k v : Byte) (s : State) : execTload k v s = .next ((s.stageWrite k v).present 0) := rfl

/-- DIGEST with an engine (42_digest_engine R82). -/
theorem execDigest_configured (b : Byte) (s : State) (h : s.cfgValid = true) :
    execDigest b s = .next ((s.setSum (s.digestedSum b)).present 0) := by
  simp [execDigest, h, respond_eq]

/-- DIGEST without an engine (42_digest_engine R82). -/
theorem execDigest_notConfigured (b : Byte) (s : State) (h : s.cfgValid = false) :
    execDigest b s = .next (s.present 0x80000300) := by
  simp [execDigest, h, raise_eq]

/-- RESET with an engine (42_digest_engine R87). -/
theorem execReset_configured (s : State) (h : s.cfgValid = true) :
    execReset s = .next ((s.setSum s.sum0).present 0) := by
  simp [execReset, h, respond_eq]

/-- RESET without an engine (42_digest_engine R87). -/
theorem execReset_notConfigured (s : State) (h : s.cfgValid = false) :
    execReset s = .next (s.present 0x80000300) := by
  simp [execReset, h, raise_eq]

/-- GET_CRC with an engine (42_digest_engine R88). -/
theorem execGetCrc_configured (s : State) (h : s.cfgValid = true) :
    execGetCrc s = .next (s.present (successWord s.checksum)) := by
  simp [execGetCrc, h, respond_eq]

/-- GET_CRC without an engine (42_digest_engine R88). -/
theorem execGetCrc_notConfigured (s : State) (h : s.cfgValid = false) :
    execGetCrc s = .next (s.present 0x80000300) := by
  simp [execGetCrc, h, raise_eq]

/-- All that a command can do: it raises an error and nothing else, or it succeeds with the effect of its kind. -/
theorem exec_cases (i : Instr) (s : State) :
    (∃ e, exec i s = .next (s.present (errorWord e))) ∨
    (∃ r wd p j x, i = .create r wd p j x ∧ widthLegal wd = true ∧
      ((wd = 8 ∧ exec i s =
          .next ((((s.normalize r 8 j x).installTable (buildTable p r)).configure).present 0)) ∨
       (wd.toNat ≠ 8 ∧ exec i s = .next ((((s.normalize r wd j x).installPoly
          (bitwisePoly r (highBitOf wd) p)).configure).present 0)))) ∨
    (∃ r j x, i = .createT r 8 j x ∧ s.stageComplete = true ∧
      exec i s = .next ((((s.normalize r 8 j x).installTable s.stage).configure).present 0)) ∨
    (∃ k v, i = .tload k v ∧ exec i s = .next ((s.stageWrite k v).present 0)) ∨
    (∃ b, i = .digest b ∧ s.cfgValid = true ∧ exec i s = .next ((s.setSum (s.digestedSum b)).present 0)) ∨
    (i = .reset ∧ s.cfgValid = true ∧ exec i s = .next ((s.setSum s.sum0).present 0)) ∨
    (i = .getCrc ∧ s.cfgValid = true ∧ exec i s = .next (s.present (successWord s.checksum))) := by
  cases i with
  | reserved000 payload => exact .inl ⟨.illegalCommand, rfl⟩
  | reserved111 payload => exact .inl ⟨.illegalCommand, rfl⟩
  | create r wd p j x =>
    by_cases h : widthLegal wd = true
    · refine .inr (.inl ⟨r, wd, p, j, x, rfl, h, ?_⟩)
      by_cases h8 : wd.toNat = 8
      · obtain rfl : wd = 8 := BitVec.eq_of_toNat_eq h8
        exact .inl ⟨rfl, execCreate_table r p j x s⟩
      · exact .inr ⟨h8, execCreate_bitwise r wd p j x s h h8⟩
    · exact .inl ⟨.invalidWidth, by
        rw [errorWord_invalidWidth]; exact execCreate_illegal r wd p j x s (by simpa using h)⟩
  | createT r wd j x =>
    by_cases h8 : wd.toNat = 8
    · obtain rfl : wd = 8 := BitVec.eq_of_toNat_eq h8
      cases h : s.stageComplete with
      | true => exact .inr (.inr (.inl ⟨r, j, x, rfl, rfl, execCreateT_complete r j x s h⟩))
      | false => exact .inl ⟨.tableIncomplete, by
        rw [errorWord_tableIncomplete]; exact execCreateT_incomplete r j x s h⟩
    · exact .inl ⟨.invalidWidth, by
        rw [errorWord_invalidWidth]; exact execCreateT_width r wd j x s h8⟩
  | tload k v => exact .inr (.inr (.inr (.inl ⟨k, v, rfl, rfl⟩)))
  | digest b =>
    cases h : s.cfgValid with
    | true => exact .inr (.inr (.inr (.inr (.inl ⟨b, rfl, rfl, execDigest_configured b s h⟩))))
    | false => exact .inl ⟨.notConfigured, by
        rw [errorWord_notConfigured]; exact execDigest_notConfigured b s h⟩
  | reset =>
    cases h : s.cfgValid with
    | true => exact .inr (.inr (.inr (.inr (.inr (.inl ⟨rfl, rfl, execReset_configured s h⟩)))))
    | false => exact .inl ⟨.notConfigured, by
        rw [errorWord_notConfigured]; exact execReset_notConfigured s h⟩
  | getCrc =>
    cases h : s.cfgValid with
    | true => exact .inr (.inr (.inr (.inr (.inr (.inr ⟨rfl, rfl, execGetCrc_configured s h⟩)))))
    | false => exact .inl ⟨.notConfigured, by
        rw [errorWord_notConfigured]; exact execGetCrc_notConfigured s h⟩

/-- A command leaves its registers' new values and one response: its next state is some state with a response presented,
the host's plan and record being what they were. -/
theorem exec_presents (i : Instr) (s : State) :
    ∃ (u : State) (r : Word), exec i s = .next (u.present r) ∧ u.plan = s.plan ∧ u.observed = s.observed := by
  rcases exec_cases i s with ⟨e, h⟩ | ⟨r, wd, p, j, x, _, _, ⟨_, h⟩ | ⟨_, h⟩⟩ | ⟨r, j, x, _, _, h⟩ | ⟨k, v, _, h⟩ |
    ⟨b, _, _, h⟩ | ⟨_, _, h⟩ | ⟨_, _, h⟩
  all_goals exact ⟨_, _, h, rfl, rfl⟩

/-- A word that decodes to a command runs that command. -/
theorem executeWord_command {w : Word} {i : Instr} (h : decode w = .command i) (s : State) :
    executeWord w s = exec i s := by
  simp [executeWord, h]

/-- An illegal word raises IllegalCommand (30_encoding R58). -/
theorem executeWord_illegal {w : Word} {why : ReservedField} (h : decode w = .illegal why) (s : State) :
    executeWord w s = .next (s.present 0x80000100) := by
  simp [executeWord, h, execIllegal, raise_eq]

/-- Executing any word presents one response. -/
theorem executeWord_presents (w : Word) (s : State) :
    ∃ (u : State) (r : Word), executeWord w s = .next (u.present r) ∧ u.plan = s.plan ∧ u.observed = s.observed := by
  cases h : decode w with
  | command i => rw [executeWord_command h]; exact exec_presents i s
  | illegal why => exact ⟨s, _, executeWord_illegal h s, rfl, rfl⟩

/-- A presented word transfers when no response waits, and is executed with the host's move over. -/
theorem step_issue {s : State} {w : Word} {ms : List HostMove} (hp : s.plan = .issue w :: ms) (hr : s.response = none) :
    step s = executeWord w (s.planned ms) := by
  simp [step, portEvent, hp, commandPort, hr]

/-- A response transfers when the host accepts it. -/
theorem step_accept {s : State} {r : Word} {ms : List HostMove} (hp : s.plan = .accept :: ms) (hr : s.response = some r) :
    step s = .next ((s.planned ms).accepted r) := by
  simp [step, portEvent, hp, responsePort, hr]

/-- Power-on reset. -/
theorem step_powerOn {s : State} {ms : List HostMove} (hp : s.plan = .powerOnReset :: ms) :
    step s = .next (s.planned ms).powerOn := by
  simp [step, portEvent, hp]

/-- All that a step can do (70_reset_and_hazards R109, R113): it holds, the host pauses, the block is reset, a response
transfers, or a command transfers and is executed. -/
theorem step_cases {s t : State} (h : step s = .next t) :
    t = s ∨
    (∃ ms, s.plan = .pause :: ms ∧ t = s.planned ms) ∨
    (∃ ms, s.plan = .powerOnReset :: ms ∧ t = (s.planned ms).powerOn) ∨
    (∃ ms r, s.plan = .accept :: ms ∧ s.response = some r ∧ t = (s.planned ms).accepted r) ∨
    (∃ ms w, s.plan = .issue w :: ms ∧ s.response = none ∧ executeWord w (s.planned ms) = .next t) := by
  unfold step portEvent at h
  split at h
  · exact .inl (by simpa using h.symm)
  · rename_i w ms hp
    unfold commandPort at h
    split at h
    · exact .inr (.inr (.inr (.inr ⟨ms, w, hp, ‹_›, h⟩)))
    · exact .inl (by simpa using h.symm)
  · rename_i ms hp
    unfold responsePort at h
    split at h
    · exact .inr (.inr (.inr (.inl ⟨ms, _, hp, ‹_›, by simpa using h.symm⟩)))
    · exact .inl (by simpa using h.symm)
  · rename_i ms hp
    exact .inr (.inl ⟨ms, hp, by simpa using h.symm⟩)
  · rename_i ms hp
    exact .inr (.inr (.inl ⟨ms, hp, by simpa using h.symm⟩))

end Sys2Proof.Machine
end

