-- ==== Sys2Proof/Laws/PerInstr.lean ====
section
/-! SUPPORT. Statements made per instruction: the word of a command lies in the row of its mnemonic in the opcode map
(30_encoding R57). -/

namespace Sys2Proof.Laws.EncodesInRow

/-- The row of the opcode map that has the command's mnemonic selects the command's word. -/
def Statement (i : Instr) : Prop :=
  ∃ row ∈ opcodeMap, row.mnemonic = i.mnemonic ∧ encode i &&& row.mask = row.pattern

theorem reserved000 (payload : BitVec 29) : Statement (.reserved000 payload) := by
  refine ⟨⟨"reserved_000", 0x00000000, 0xE0000000⟩, by decide, rfl, ?_⟩
  apply BitVec.eq_of_getLsbD_eq
  intro k hk
  interval_cases k <;> simp [encode, place]

theorem create (reflect : Bool) (width : BitVec 4) (polynomial initial finalXor : Byte) : Statement (.create reflect width polynomial initial finalXor) := by
  refine ⟨⟨"CREATE", 0x20000000, 0xE0000000⟩, by decide, rfl, ?_⟩
  apply BitVec.eq_of_getLsbD_eq
  intro k hk
  interval_cases k <;> simp [encode, place]

theorem createT (reflect : Bool) (width : BitVec 4) (initial finalXor : Byte) : Statement (.createT reflect width initial finalXor) := by
  refine ⟨⟨"CREATE_T", 0x40000000, 0xE0FF0000⟩, by decide, rfl, ?_⟩
  apply BitVec.eq_of_getLsbD_eq
  intro k hk
  interval_cases k <;> simp [encode, place]

theorem tload (index value : Byte) : Statement (.tload index value) := by
  refine ⟨⟨"TLOAD", 0x60000000, 0xFFFF0000⟩, by decide, rfl, ?_⟩
  apply BitVec.eq_of_getLsbD_eq
  intro k hk
  interval_cases k <;> simp [encode, place]

theorem digest (byte : Byte) : Statement (.digest byte) := by
  refine ⟨⟨"DIGEST", 0x80000000, 0xFFFFFF00⟩, by decide, rfl, ?_⟩
  apply BitVec.eq_of_getLsbD_eq
  intro k hk
  interval_cases k <;> simp [encode, place]

theorem reset : Statement (.reset) := by
  refine ⟨⟨"RESET", 0xA0000000, 0xFFFFFFFF⟩, by decide, rfl, ?_⟩
  decide

theorem getCrc : Statement (.getCrc) := by
  refine ⟨⟨"GET_CRC", 0xC0000000, 0xFFFFFFFF⟩, by decide, rfl, ?_⟩
  decide

theorem reserved111 (payload : BitVec 29) : Statement (.reserved111 payload) := by
  refine ⟨⟨"reserved_111", 0xE0000000, 0xE0000000⟩, by decide, rfl, ?_⟩
  apply BitVec.eq_of_getLsbD_eq
  intro k hk
  interval_cases k <;> simp [encode, place]

end Sys2Proof.Laws.EncodesInRow
end

