-- ==== Sys2Proof/Laws/Runs.lean ====
section
/-! SUPPORT. The laws of runs: the commands left in a run and when it is over (70_reset_and_hazards R116). -/

namespace Sys2Proof.Machine

@[simp] theorem commandsLeft_nil : commandsLeft [] = [] := rfl
@[simp] theorem commandsLeft_powerOnReset (ms : List HostMove) : commandsLeft (.powerOnReset :: ms) = [] := rfl
@[simp] theorem commandsLeft_issue (w : Word) (ms : List HostMove) :
    commandsLeft (.issue w :: ms) = w :: commandsLeft ms := rfl
@[simp] theorem commandsLeft_accept (ms : List HostMove) : commandsLeft (.accept :: ms) = commandsLeft ms := rfl
@[simp] theorem commandsLeft_pause (ms : List HostMove) : commandsLeft (.pause :: ms) = commandsLeft ms := rfl

/-- Moves without a power-on reset put their own commands before those left after them. -/
theorem commandsLeft_append {before : List HostMove} (h : .powerOnReset ∉ before) (after : List HostMove) :
    commandsLeft (before ++ after) = commandsLeft before ++ commandsLeft after := by
  induction before with
  | nil => rfl
  | cons m ms ih =>
    have hms := ih fun hm => h (List.mem_cons_of_mem m hm)
    cases m with
    | powerOnReset => exact absurd List.mem_cons_self h
    | issue w => simp [hms]
    | accept => simpa using hms
    | pause => simpa using hms

/-- A program leaves exactly its words to issue. -/
@[simp] theorem commandsLeft_programMoves (ws : List Word) : commandsLeft (programMoves ws) = ws := by
  induction ws with
  | nil => rfl
  | cons w ws ih => simpa [programMoves] using ih

/-- A run is over exactly when no command is left in it and no response waits. -/
theorem runEnded_iff (s : State) : s.runEnded = true ↔ commandsLeft s.plan = [] ∧ s.response = none := by
  simp [State.runEnded]

end Sys2Proof.Machine
end

