-- ==== Sys2Proof/Tests/Slice0.lean ====
section
/-! SUPPORT. Tests: expected values are the spec's own (the file and section stand at each group), and witnesses that the
statements' hypotheses can be met. -/

namespace Sys2Proof.Tests

open Sys2Proof Sys2Proof.Machine

/-! ## Well-formedness: an ill-formed line for each check (30_encoding R60, R61) -/

theorem test_wellFormed_create : (AsmLine.create 15 255 255 255 1).wellFormed = true := by decide
theorem test_illFormed_create_width : (AsmLine.create 16 7 0 0 0).wellFormed = false := by decide
theorem test_illFormed_create_poly : (AsmLine.create 8 256 0 0 0).wellFormed = false := by decide
theorem test_illFormed_create_init : (AsmLine.create 8 7 256 0 0).wellFormed = false := by decide
theorem test_illFormed_create_xorout : (AsmLine.create 8 7 0 256 0).wellFormed = false := by decide
theorem test_illFormed_create_refl : (AsmLine.create 8 7 0 0 2).wellFormed = false := by decide
theorem test_illFormed_createT :
    [AsmLine.createT 16 0 0 0, .createT 8 256 0 0, .createT 8 0 256 0, .createT 8 0 0 2].all (·.wellFormed == false)
      = true := by decide
theorem test_illFormed_tload : [AsmLine.tload 256 0, .tload 0 256].all (·.wellFormed == false) = true := by decide
theorem test_illFormed_digest : (AsmLine.digest 256).wellFormed = false := by decide
theorem test_illFormed_word : (AsmLine.word (2 ^ 32)).wellFormed = false := by decide
theorem test_illFormed_digests : (AsmLine.digests [1, 256]).wellFormed = false := by decide
theorem test_illFormed_digestsText : (AsmLine.digestsText ['1', 'é']).wellFormed = false := by decide
theorem test_illFormed_tloadAll_short : (AsmLine.tloadAll [0, 1]).wellFormed = false := by decide
theorem test_illFormed_tloadAll_entry : (AsmLine.tloadAll (List.replicate 256 256)).wellFormed = false := by
  decide +kernel
theorem test_illFormed_createWithTable :
    [AsmLine.createWithTable [0] 8 0 0 0, .createWithTable (List.replicate 256 256) 8 0 0 0,
     .createWithTable (List.replicate 256 0) 16 0 0 0, .createWithTable (List.replicate 256 0) 8 256 0 0,
     .createWithTable (List.replicate 256 0) 8 0 256 0, .createWithTable (List.replicate 256 0) 8 0 0 2].all
      (·.wellFormed == false) = true := by decide +kernel

/-! ## Decoding: words written out bit by bit from 30_encoding R52 to R55, R57, R58 -/

/-- CREATE 5, 0x14, 0x1F, 0x1F, 1: OP 001, R 1, WD 0101, P 00010100, I 00011111, X 00011111. -/
theorem test_decode_create :
    decode 0b001_1_0101_00010100_00011111_00011111 = .command (.create true 5 0x14 0x1F 0x1F) := by decide
/-- CREATE_T 8, 0xFD, 0x55, 0: OP 010, R 0, WD 1000, 0, I 11111101, X 01010101. -/
theorem test_decode_createT :
    decode 0b010_0_1000_00000000_11111101_01010101 = .command (.createT false 8 0xFD 0x55) := by decide
/-- TLOAD 1, 0x72: OP 011, thirteen zeros, IDX 00000001, VAL 01110010. -/
theorem test_decode_tload : decode 0b011_0000000000000_00000001_01110010 = .command (.tload 0x01 0x72) := by decide
/-- DIGEST 0x31: OP 100, twenty-one zeros, B 00110001. -/
theorem test_decode_digest : decode 0b100_000000000000000000000_00110001 = .command (.digest 0x31) := by decide
theorem test_decode_reset : decode 0b101_00000000000000000000000000000 = .command .reset := by decide
theorem test_decode_getCrc : decode 0b110_00000000000000000000000000000 = .command .getCrc := by decide
theorem test_decode_reserved000 : decode 0 = .command (.reserved000 0) := by decide
theorem test_decode_reserved111 : decode 0xFFFFFFFF = .command (.reserved111 0x1FFFFFFF) := by decide
/-- 95_test_vectors 2.2: reserved bits make a word illegal, the lowest and the highest of each field. -/
theorem test_decode_illegal :
    decode 0x48010000 = .illegal .createT ∧ decode 0x43FF0000 = .illegal .createT ∧
    decode 0x60010000 = .illegal .tload ∧ decode 0x70000000 = .illegal .tload ∧
    decode 0x80000100 = .illegal .digest ∧ decode 0x90000000 = .illegal .digest ∧
    decode 0xA0000001 = .illegal .reset ∧ decode 0xB0000000 = .illegal .reset ∧
    decode 0xC0000001 = .illegal .getCrc ∧ decode 0xD0000000 = .illegal .getCrc := by decide
/-- 95_test_vectors 2.1. -/
theorem test_encode_words :
    encode (.create true 15 0xFF 0xFF 0xFF) = 0x3FFFFFFF ∧ encode (.createT true 8 0 0) = 0x58000000 ∧
    encode (.tload 255 0xC6) = 0x6000FFC6 ∧ encode (.digest 0xFF) = 0x800000FF ∧ encode .reset = 0xA0000000 ∧
    encode .getCrc = 0xC0000000 := by decide
/-- 30_encoding R60, 95_test_vectors 2.1: a line of text. -/
theorem test_readLine_create :
    (readLine "CREATE 8, 0x1D, 0xFD, 0x00, 0".toList).bind AsmLine.assemble = some [0x281DFD00] := by decide +kernel
/-- 30_encoding R61. -/
theorem test_readLine_text :
    (readLine "DIGESTS \"12\"".toList).bind AsmLine.assemble = some [0x80000031, 0x80000032] := by decide +kernel

/-! ## Single commands -/

/-- The next state, if the outcome is one. -/
def answer (o : Host.Outcome State Fault Refusal) : Option State :=
  match o with
  | .next s => some s
  | .fault _ => none
  | .refused _ => none

/-- An engine as CREATE 8, 0x07, 0x00, 0x00, 0 builds it (95_test_vectors 3.3 and 4.1). -/
def tableEngine : State :=
  { State.reset with
    cfgValid := true, width := 8, byTable := true, highBit := 0x80, mask := 0xFF, lut := buildTableNormal 0x07 }

/-- CREATE 3, 0x03, 0x00, 0x07, 0 (95_test_vectors 3.3). -/
def normalEngine : State :=
  { State.reset with cfgValid := true, width := 3, poly := 0x03, finalXor := 0x07, highBit := 0x04, mask := 0x07 }

/-- CREATE 5, 0x14, 0x1F, 0x1F, 1 (95_test_vectors 3.3). -/
def reflectedEngine : State :=
  { State.reset with
    cfgValid := true, width := 5, reflect := true, poly := 0x05, initial := 0x1F, finalXor := 0x1F, highBit := 0x10,
    mask := 0x1F, sum := 0x1F }

/-- After TLOADALL of `build_table_reflected(0x9C)` (95_test_vectors 3.5). -/
def stagedState : State :=
  { State.reset with stage := buildTableReflected 0x9C, stageLoaded := Vector.replicate 256 true }

/-- 95_test_vectors 3.3: the width-8 engine, its table and its response. -/
theorem test_create_table :
    (answer (exec (.create false 8 0x07 0 0) State.reset)).map
      (fun t => (t.cfgValid, t.width, t.byTable)) = some (true, 8, true) ∧
    (answer (exec (.create false 8 0x07 0 0) State.reset)).map
      (fun t => (t.poly, t.highBit, t.mask)) = some (0, 0x80, 0xFF) ∧
    (answer (exec (.create false 8 0x07 0 0) State.reset)).map
      (fun t => (t.sum, entry t.lut 0x01, entry t.lut 0x80, t.response)) = some (0, 0x07, 0x89, some 0) := by
  decide +kernel
/-- 95_test_vectors 3.3: width 1 takes bit 0 of P and I alone, INITIAL and FINAL_XOR keep all bits. -/
theorem test_create_width_one : (answer (exec (.create true 1 0xFF 0xFF 0xFF) State.reset)).map
    (fun t => (t.poly, t.sum, t.initial, t.finalXor, t.highBit, t.mask)) =
      some (0x01, 0x01, 0xFF, 0xFF, 0x01, 0x01) := by decide
/-- 95_test_vectors 3.3 and 3.5: the table engine starts from the reflected initial value; CREATE_T copies STAGE. -/
theorem test_createT : (answer (exec (.createT true 8 0x01 0) stagedState)).map
    (fun t => (t.sum, entry t.lut 0x31, t.response)) = some (0x80, 0xDA, some 0) := by decide +kernel
/-- 95_test_vectors 3.4: InvalidWidth before TableIncomplete. -/
theorem test_createT_errors :
    (answer (exec (.createT false 3 0 0) State.reset)).map (·.response) = some (some 0x80000200) ∧
    (answer (exec (.createT true 8 0 0) State.reset)).map (·.response) = some (some 0x80000400) := by decide +kernel
/-- 40_normalizer R73: TLOAD 0x01, 0x72. -/
theorem test_tload : (answer (exec (.tload 0x01 0x72) State.reset)).map
    (fun t => (entry t.stage 0x01, entry t.stageLoaded 0x01, entry t.stageLoaded 0x00)) =
      some (0x72, true, false) := by decide +kernel
/-- 95_test_vectors 5.1: the table path and the bitwise paths on single bytes. -/
theorem test_digest_table : (answer (exec (.digest 0x80) tableEngine)).map (·.sum) = some 0x89 := by decide +kernel
theorem test_digest_bitwise :
    (answer (exec (.digest 0x80) normalEngine)).map (·.sum) = some 0xCB ∧
    (answer (exec (.digest 0x01) reflectedEngine)).map (·.sum) = some 0xA1 := by decide
/-- 42_digest_engine R87: the starting sum is the reflected initial value. -/
theorem test_reset : (answer (exec .reset { reflectedEngine with initial := 0x01, sum := 0xA1 })).map (·.sum) =
    some 0x10 := by decide
/-- 95_test_vectors 5.1: the reflected readout (SUM 0xA1 reads 0x0F) and the empty message of S4 (0x07). -/
theorem test_getCrc :
    (answer (exec .getCrc { reflectedEngine with sum := 0xA1 })).map (·.response) = some (some 0x0F) ∧
    (answer (exec .getCrc normalEngine)).map (·.response) = some (some 0x07) := by decide
/-- 90_conflicts C2: the table path does not un-reflect (S3: SUM 0x15 reads 0x15). -/
theorem test_getCrc_table : (answer (exec .getCrc { tableEngine with reflect := true, sum := 0x15 })).map (·.response) =
    some (some 0x15) := by decide
/-- 60_exceptions R95: no engine. -/
theorem test_notConfigured :
    [Instr.digest 0x31, .reset, .getCrc].all (fun i =>
      (answer (exec i State.reset)).map (·.response) == some (some 0x80000300)) = true := by decide
/-- 30_encoding R58: the reserved opcodes. -/
theorem test_reserved :
    (answer (exec (.reserved000 0) normalEngine)).map (·.response) = some (some 0x80000100) ∧
    (answer (exec (.reserved111 0x1FFFFFFF) normalEngine)).map (·.response) = some (some 0x80000100) := by decide
/-- 40_normalizer R62, 95_test_vectors 3.2: bits above h are ignored. -/
theorem test_reflectBits : reflectBits 0x10 0xF4 = 0x05 ∧ reflectBits 0x80 0x9C = 0x39 ∧ reflectBits 0x01 0xFE = 0 := by
  decide
/-- 41_table_synthesizer R80. -/
theorem test_tables :
    entry (buildTableNormal 0x07) 0x31 = 0x97 ∧ entry (buildTableReflected 0x9C) 0x31 = 0xDA ∧
    entry (buildTableReflected 0x9C) 0xFF = 0xC6 := by decide +kernel

/-! ## Steps -/

/-- A presented word is executed by the next step (70_reset_and_hazards R113; word and response: 95_test_vectors 2.2). -/
theorem test_step_issue : (answer (step (State.reset.withFetchWord 32 0x43FF0000))).map (fun t => (t.response, t.plan)) =
    some (some 0x80000100, []) := by decide
/-- An accepted response is observed, and the engine is idle again (70_reset_and_hazards R113). -/
theorem test_step_accept :
    (answer (step { State.reset with response := some 7, plan := [.accept, .pause] })).map
      (fun t => (t.response, t.observed, t.plan)) = some (none, [7], [.pause]) := by decide
/-- A command waits while a response waits (70_reset_and_hazards R113). -/
theorem test_step_hold :
    (answer (step { State.reset with response := some 7, plan := [.issue 0xA0000000] })).map
      (fun t => (t.cfgValid, t.response, t.plan)) = some (false, some 7, [.issue 0xA0000000]) := by decide
/-- Power-on reset discards a response and clears CFG_VALID (70_reset_and_hazards R109). -/
theorem test_step_powerOn :
    (answer (step { tableEngine with response := some 7, plan := [.powerOnReset] })).map
      (fun t => (t.cfgValid, t.response)) = some (false, none) := by decide
/-- 95_test_vectors P3, steps 4 to 6 (CREATE 9; CREATE 3; GET_CRC) as a program. -/
theorem test_program :
    (answer (core.run 6 { State.reset with plan := programMoves [0x29030007, 0x23030007, 0xC0000000] })).map
      (fun t => (t.observed, t.runEnded, t.runFaulted)) = some ([0x80000200, 0, 7], true, true) := by decide +kernel

/-- 70_reset_and_hazards R116: a move left over does not keep a run from ending (word and response: 95_test_vectors 2.2). -/
theorem test_run_ends_with_a_move_left :
    (answer (core.run 2 { State.reset with plan := [.issue 0xC0000000, .accept, .accept] })).map
      (fun t => (t.observed, t.runEnded)) = some ([0x80000300], true) := by decide
/-- 70_reset_and_hazards R116: a run that a power-on reset follows ends with its own observation; a cut run does not end. -/
theorem test_run_ends_before_powerOn :
    (answer (core.run 2 { State.reset with plan := [.issue 0xC0000000, .accept, .powerOnReset, .issue 0] })).map
      (fun t => (t.observed, t.runEnded)) = some ([0x80000300], true) ∧
    (answer (core.run 1 { State.reset with plan := [.issue 0xC0000000, .powerOnReset] })).map
      (fun t => (t.observed, t.runEnded)) = some ([], false) := by decide

/-! ## Witnesses: the hypotheses of the statements can be met -/

/-- An idle engine with a presented word. -/
def presented (w : Word) : State := State.reset.presenting w

theorem witness_DecodeOfEncodeIsTheCommand : (Instr.create true 15 0xFF 0xFF 0xFF).wellFormed = true := by decide
theorem witness_EncodeOfDecodeIsTheWord : decode 0x3FFFFFFF = .command (.create true 15 0xFF 0xFF 0xFF) := by decide
theorem witness_MatchAndMaskSelectTheCommand :
    (0x5F00FFFF : Word) &&& 0xE0FF0000 = 0x40000000 ∧ (0x5F01FFFF : Word) &&& 0xE0FF0000 ≠ 0x40000000 := by decide
theorem witness_DecodingIsTotalAndIllegalWordsRaise :
    ([0x20000000, 0x3FFFFFFF, 0x40000000, 0x5F00FFFF, 0x5F01FFFF, 0x60000000, 0x6000FFFF, 0x60010000, 0x80000000,
      0x800000FF, 0x80000100, 0xA0000000, 0xA0000001, 0xC0000000, 0xDFFFFFFF, 0x00000000, 0x1FFFFFFF, 0xE0000000,
      0xFFFFFFFF] : List Word).all (fun w =>
        (presented w).plan == [.issue w] && (presented w).response == none) = true := by decide
/-- Clause by clause: OP 1 at both ends, OP 2 to 6 with the reserved field zero and one above, OP 0 and 7. -/
theorem witness_DecodingIsTotalAndIllegalWordsRaise_clauses :
    (0x3FFFFFFF : Word).toNat / 2 ^ 29 = 1 ∧
    ((0x5F00FFFF : Word).toNat / 2 ^ 29 = 2 ∧ (0x5F00FFFF : Word).extractLsb' 16 8 = 0) ∧
    ((0x40010000 : Word).toNat / 2 ^ 29 = 2 ∧ (0x40010000 : Word).extractLsb' 16 8 ≠ 0) ∧
    ((0x6000FFFF : Word).toNat / 2 ^ 29 = 3 ∧ (0x6000FFFF : Word).extractLsb' 16 13 = 0) ∧
    ((0x60010000 : Word).toNat / 2 ^ 29 = 3 ∧ (0x60010000 : Word).extractLsb' 16 13 ≠ 0) ∧
    ((0x800000FF : Word).toNat / 2 ^ 29 = 4 ∧ (0x800000FF : Word).extractLsb' 8 21 = 0) ∧
    ((0x80000100 : Word).toNat / 2 ^ 29 = 4 ∧ (0x80000100 : Word).extractLsb' 8 21 ≠ 0) ∧
    ((0xA0000000 : Word).toNat / 2 ^ 29 = 5 ∧ (0xA0000000 : Word).extractLsb' 0 29 = 0) ∧
    ((0xC0000000 : Word).toNat / 2 ^ 29 = 6 ∧ (0xC0000000 : Word).extractLsb' 0 29 = 0) ∧
    ((0xC0000001 : Word).toNat / 2 ^ 29 = 6 ∧ (0xC0000001 : Word).extractLsb' 0 29 ≠ 0) ∧
    (0x1FFFFFFF : Word).toNat / 2 ^ 29 = 0 ∧ (0xE0000000 : Word).toNat / 2 ^ 29 = 7 := by decide
theorem witness_OperandsAreTheFieldsOfTheWord :
    decode 0x30000000 = .command (.create true 0 0 0 0) ∧ decode 0x29FFFFFF = .command (.create false 9 0xFF 0xFF 0xFF) ∧
    decode 0x5700FF01 = .command (.createT true 7 0xFF 0x01) ∧ decode 0x6000FF01 = .command (.tload 0xFF 0x01) ∧
    decode 0x800000FF = .command (.digest 0xFF) := by decide
theorem witness_PseudoInstructionsExpand : ∃ ws, (AsmLine.tloadAll (List.replicate 256 255)).assemble = some ws := by
  have h : (AsmLine.tloadAll (List.replicate 256 255)).wellFormed = true := by decide +kernel
  generalize AsmLine.tloadAll (List.replicate 256 255) = l at h
  simp [AsmLine.assemble, h]
theorem witness_PseudoInstructionsExpand_operands :
    (∀ c ∈ ['1', '~'], c.toNat < 128) ∧ (List.replicate 256 255).length = 256 :=
  ⟨fun c hc => by rcases List.mem_pair.1 hc with rfl | rfl <;> decide, List.length_replicate⟩
theorem witness_StepRunsThePresentedCommand :
    (presented 0xC0000000).plan = [.issue 0xC0000000] ∧ (presented 0xC0000000).response = none ∧
    decode 0xC0000000 = .command .getCrc ∧ Instr.getCrc.wellFormed = true := by decide
/-- Ready; presented and ready; a response waiting, accepted and not; no command; nothing to accept. -/
theorem witness_HandshakeTransfersInOrder :
    (presented 0).cmdReady = true ∧ (presented 0).command = some 0 ∧
    (let s := { State.reset with response := some 7, plan := [.accept] }
     s.response = some 7 ∧ s.rstN = true ∧ s.rspReady = true ∧ (answer (step s)).isSome = true) ∧
    (let s := { State.reset with response := some 7, plan := [.issue 0] }
     s.response = some 7 ∧ s.rstN = true ∧ s.rspReady = false ∧ (answer (step s)).isSome = true) ∧
    (let s := { State.reset with plan := [.pause] }
     s.command = none ∧ s.rstN = true ∧ (answer (step s)).isSome = true) ∧
    (let s := { State.reset with plan := [.accept] }
     s.response = none ∧ s.rspReady = true ∧ (answer (step s)).isSome = true) := by decide
theorem witness_EngineHoldsWithoutATransfer :
    State.reset.plan = [] ∧
    ({ presented 0 with response := some 7 }.plan = [.issue 0] ∧ { presented 0 with response := some 7 }.response = some 7) ∧
    ({ State.reset with plan := [.accept] }.plan = [.accept] ∧ { State.reset with plan := [.accept] }.response = none) := by
  decide

/-- A built engine is consistent. -/
theorem tableEngine_consistent : tableEngine.Consistent := by
  intro _; decide
theorem normalEngine_consistent : normalEngine.Consistent := by
  intro _; decide
theorem reflectedEngine_consistent : reflectedEngine.Consistent := by
  intro _; decide

theorem witness_EveryWordGetsOneFormedResponse :
    (reflectedEngine.presenting 0xC0000000).plan = [.issue 0xC0000000] ∧
    (reflectedEngine.presenting 0xC0000000).response = none ∧
    (reflectedEngine.presenting 0xC0000000).cfgValid = true ∧
    (reflectedEngine.presenting 0xC0000000).Consistent :=
  ⟨rfl, rfl, rfl, fun _ => by decide⟩
theorem witness_EveryProgramRunsToItsEnd : State.reset.response = none := by decide
/-- A response waiting; a command left behind another move; the last response accepted with a move left over, and with a
power-on reset to come; an ended run that steps on. -/
theorem witness_RunEndsWhenTheLastResponseIsAccepted :
    { State.reset with response := some 7 }.response = some 7 ∧
    ((∀ m ∈ [HostMove.accept], m ≠ .powerOnReset) ∧
      { State.reset with plan := [.accept, .issue 0] }.plan = [HostMove.accept] ++ .issue 0 :: []) ∧
    ((∀ m ∈ [HostMove.accept], m = .accept ∨ m = .pause) ∧
      { State.reset with response := some 7, plan := [.accept, .accept] }.plan = .accept :: ([HostMove.accept] ++ [])) ∧
    ((∀ m ∈ ([] : List HostMove), m = .accept ∨ m = .pause) ∧
      { State.reset with response := some 7, plan := [.accept, .powerOnReset, .issue 0] }.plan =
        .accept :: ([] ++ [HostMove.powerOnReset, .issue 0]) ∧
      [HostMove.powerOnReset, .issue 0].head? = some .powerOnReset) ∧
    (∃ t, { State.reset with plan := [.pause] }.runEnded = true ∧ { State.reset with plan := [.pause] }.rstN = true ∧
      step { State.reset with plan := [.pause] } = .next t) :=
  ⟨rfl, by decide, by decide, by decide, ⟨_, by decide, by decide, rfl⟩⟩
theorem witness_PowerOnResetAloneClearsTheFlags :
    ({ tableEngine with response := some 7, plan := [.powerOnReset] }.rstN = false) ∧
    (let s := { stagedState with cfgValid := true, plan := [.issue 0xA0000000] }
     s.rstN = true ∧ (answer (step s)).isSome = true ∧ s.cfgValid = true ∧ entry s.stageLoaded 255 = true) := by
  decide +kernel
/-- The widths at which the clauses meet: 0 and 9, 15 illegal; 1, 7 and 8 legal. -/
theorem witness_CreateBuildsTheEngine :
    (0 : BitVec 4).toNat = 0 ∧ 9 ≤ (9 : BitVec 4).toNat ∧ 9 ≤ (15 : BitVec 4).toNat ∧ 1 ≤ (1 : BitVec 4).toNat ∧
    (7 : BitVec 4).toNat ≤ 8 ∧ (8 : BitVec 4).toNat ≤ 8 ∧ (0x20000000 : Word).toNat / 2 ^ 29 = 1 := by decide
theorem witness_CreateTCopiesTheStagedTable :
    (7 : BitVec 4).toNat ≠ 8 ∧ (8 : BitVec 4).toNat = 8 ∧
    (∃ k : Byte, entry (setEntry stagedState.stageLoaded 255 false) k = false) ∧
    (∀ k : Byte, entry stagedState.stageLoaded k = true) ∧
    (0x40010000 : Word).toNat / 2 ^ 29 = 2 ∧ (0x40010000 : Word).toNat / 2 ^ 16 % 256 ≠ 0 :=
  ⟨by decide, by decide, ⟨255, by simp⟩, fun k => by simp [entry, stagedState], by decide, by decide⟩
theorem witness_TloadWritesOneStagedEntry :
    (0 : Byte) ≠ 255 ∧ (0x60010000 : Word).toNat / 2 ^ 29 = 3 ∧ (0x60010000 : Word).toNat / 2 ^ 16 % 2 ^ 13 ≠ 0 := by decide
theorem witness_DigestFoldsOneByte :
    State.reset.cfgValid = false ∧ tableEngine.cfgValid = true ∧ (0x80000100 : Word).toNat / 2 ^ 29 = 4 ∧
    (0x80000100 : Word).toNat / 2 ^ 8 % 2 ^ 21 ≠ 0 := by decide
theorem witness_TablePathIsOneLookup : tableEngine.cfgValid = true ∧ tableEngine.byTable = true := by decide
theorem witness_BitwiseNormalPathTakesTheHighBitFirst :
    normalEngine.cfgValid = true ∧ normalEngine.byTable = false ∧ normalEngine.reflect = false := by decide
theorem witness_BitwiseReflectedPathTakesTheLowBitFirst :
    reflectedEngine.cfgValid = true ∧ reflectedEngine.byTable = false ∧ reflectedEngine.reflect = true := by decide
theorem witness_ResetRestoresTheStartingSum :
    State.reset.cfgValid = false ∧ reflectedEngine.cfgValid = true ∧ (0xA0000001 : Word).toNat / 2 ^ 29 = 5 ∧
    (0xA0000001 : Word).toNat % 2 ^ 29 ≠ 0 := by decide
/-- Both sides of the last clause's condition, and its two executions. -/
theorem witness_GetCrcReadsTheChecksum :
    State.reset.cfgValid = false ∧ reflectedEngine.cfgValid = true ∧ (0xC0000080 : Word).toNat / 2 ^ 29 = 6 ∧
    (0xC0000080 : Word).toNat % 2 ^ 29 ≠ 0 ∧
    (∃ t u, exec (.create true 7 0x79 0x01 0) State.reset = .next t ∧ exec .getCrc t = .next u) ∧
    (∃ t u, exec (.create true 8 0x9C 0x01 0) State.reset = .next t ∧ exec .getCrc t = .next u) :=
  ⟨by decide, by decide, by decide, by decide, ⟨_, _, rfl, rfl⟩, ⟨_, _, rfl, rfl⟩⟩
theorem witness_RaisingAnErrorWritesNoRegister :
    (({ State.reset with plan := [.accept, .issue 0] } : State).present (errorWord .tableIncomplete)).plan =
      [.accept, .issue 0] := by decide
/-- Every decoding that the order of checks tells apart, each with an idle engine. -/
theorem witness_ErrorsAreCheckedInOrder :
    ([0x43FF0000, 0x00000000, 0xE0000000, 0x20000000, 0x29000000, 0x21000000, 0x28000000, 0x47000000, 0x48000000,
      0x60000000, 0x80000031, 0xA0000000, 0xC0000000] : List Word).all (fun w =>
        (presented w).plan == [.issue w] && (presented w).response == none) = true ∧
    entry (presented 0x48000000).stageLoaded 255 = false ∧
    entry (stagedState.presenting 0x48000000).stageLoaded 255 = true := by decide +kernel
theorem witness_AnErrorLeavesNoTrace :
    ∃ t, step { reflectedEngine with plan := [.issue 0x29070000, .accept] } = .next t ∧
      t.response = some 0x80000200 ∧ isErrorWord 0x80000200 = true :=
  ⟨_, rfl, by decide, by decide⟩
theorem witness_CfgValidGuardsTheDigestEngine :
    (∃ t, exec (.create false 8 7 0 0) State.reset = .next t ∧ State.reset.cfgValid = false ∧ t.cfgValid = true ∧
      t.response = some 0) ∧
    (∃ t, exec (.tload 0 0) tableEngine = .next t ∧ tableEngine.cfgValid = true) ∧
    (∃ t, step { tableEngine with plan := [.powerOnReset] } = .next t ∧ t.cfgValid = false) :=
  ⟨⟨_, rfl, by decide, by decide, by decide⟩, ⟨_, rfl, by decide⟩, ⟨_, rfl, by decide⟩⟩
/-- A command of each kind of the match. -/
theorem witness_CommandsWriteOnlyTheirRegisters :
    [Instr.create false 8 7 0 0, .createT false 8 0 0, .tload 0 0, .digest 0, .reset, .getCrc, .reserved000 0,
      .reserved111 0].all (fun i => (answer (exec i tableEngine)).isSome) = true := by decide +kernel
theorem witness_LutIsImmutableAfterConstruction :
    ∃ t, step (presented 0x28070000) = .next t ∧ (presented 0x28070000).rstN = true ∧
      t.lut ≠ (presented 0x28070000).lut :=
  ⟨_, rfl, by decide, fun h => absurd (congrArg (entry · 0x01) h) (by decide +kernel)⟩
theorem witness_LutIsACopyOfStage :
    ∃ t u, exec (.createT true 8 0 0) stagedState = .next t ∧ t.response = some 0 ∧ exec (.tload 0x31 0) t = .next u ∧
      t.lut ≠ stagedState.lut :=
  ⟨_, _, execCreateT_complete true 0 0 stagedState (by decide +kernel), rfl, rfl, by decide +kernel⟩
theorem witness_CommandsRepeatAsTheSpecSays :
    (∃ t t', exec (.create true 8 0x9C 1 0) State.reset = .next t ∧ exec (.create true 8 0x9C 1 0) tableEngine = .next t' ∧
      t.response = some 0) ∧
    (∃ t t', exec (.createT true 8 1 0) stagedState = .next t ∧
      exec (.createT true 8 1 0) { stagedState with sum := 3 } = .next t' ∧ t.response = some 0 ∧ t'.response = some 0) ∧
    (∃ t, exec .reset reflectedEngine = .next t) ∧ (∃ t, exec (.tload 5 6) State.reset = .next t) :=
  ⟨⟨_, _, rfl, rfl, by decide⟩,
    ⟨_, _, execCreateT_complete true 1 0 stagedState (by decide +kernel),
      execCreateT_complete true 1 0 { stagedState with sum := 3 } (by decide +kernel), rfl, rfl⟩, ⟨_, rfl⟩, ⟨_, rfl⟩⟩
/-- Loads of every index, out of order, and loads that leave out 255. -/
theorem witness_BootBuildsAnEngine :
    (∀ k : Byte, ∃ v, (k, v) ∈ (List.range 256).reverse.map fun j => (BitVec.ofNat 8 j, (7 : Byte))) ∧
    (∀ v, ((255 : Byte), v) ∉ (List.range 255).map fun j => (BitVec.ofNat 8 j, (7 : Byte))) := by
  constructor
  · intro k
    refine ⟨7, List.mem_map.2 ⟨k.toNat, ?_, by simp⟩⟩
    simp only [List.mem_reverse, List.mem_range]
    exact k.isLt
  · intro v h
    obtain ⟨j, hj, e⟩ := List.mem_map.1 h
    have hj' := List.mem_range.1 hj
    have := congrArg (fun q : Byte × Byte => q.1.toNat) e
    have hk : (255 : Byte).toNat = 255 := rfl
    simp only [BitVec.toNat_ofNat] at this
    omega
theorem witness_ReflectBitsMirrorsTheLowBits : 1 ≤ 1 ∧ 8 ≤ 8 ∧ 7 < 8 := by decide
theorem witness_ReflectionIsAnInvolution : (0x1F : Byte).toNat < 2 * 2 ^ (5 - 1) ∧ ¬ (0x20 : Byte).toNat < 2 * 2 ^ (5 - 1) := by
  decide
theorem witness_HighBitAndMaskOfEveryWidth : 1 ≤ (1 : BitVec 4).toNat ∧ (8 : BitVec 4).toNat ≤ 8 := by decide
theorem witness_DigestIsIncremental : ∃ t, digestBytes [0x31, 0x32] tableEngine = .next t := ⟨_, rfl⟩
theorem witness_ResetRoundTrip :
    ∃ t u v a b, exec (.create true 5 0x14 0x1F 0x1F) State.reset = .next t ∧ t.response = some 0 ∧
      digestBytes [0x31, 0x32] t = .next u ∧ exec .reset u = .next v ∧ exec .getCrc t = .next a ∧
      exec .getCrc v = .next b :=
  ⟨_, _, _, _, _, rfl, by decide, rfl, rfl, rfl, rfl⟩
theorem witness_ChecksumIsMasked : ∃ t, exec .getCrc normalEngine = .next t ∧ normalEngine.cfgValid = true :=
  ⟨_, rfl, by decide⟩
/-- A palindromic initial value on the reflected path, and any on the other. -/
theorem witness_TableAndBitwiseDatapathsAgree :
    (∃ t t' c b b', exec (.create true 8 0x9C 0x81 0) State.reset = .next t ∧ digestBytes [0x31] t = .next t' ∧
      exec .getCrc t' = .next c ∧ digestBytes [0x31] (bitwiseEngine8 true 0x9C 0x81 0 State.reset) = .next b ∧
      exec .getCrc b = .next b') ∧
    (∃ t t' c b b', exec (.create false 8 0x07 0x5A 0) State.reset = .next t ∧ digestBytes [0x31] t = .next t' ∧
      exec .getCrc t' = .next c ∧ digestBytes [0x31] (bitwiseEngine8 false 0x07 0x5A 0 State.reset) = .next b ∧
      exec .getCrc b = .next b') :=
  ⟨⟨_, _, _, _, _, rfl, rfl, rfl, rfl, rfl⟩, ⟨_, _, _, _, _, rfl, rfl, rfl, rfl, rfl⟩⟩
/-- 95_test_vectors 7.2: operands that differ at and above the width; and a sum that does. -/
theorem witness_UpperOperandBitsAreUnobservable :
    (0x03 : Byte).toNat % 2 ^ 3 = (0x0B : Byte).toNat % 2 ^ 3 ∧ (0x00 : Byte).toNat % 2 ^ 3 = (0xF8 : Byte).toNat % 2 ^ 3 ∧
    (0x07 : Byte).toNat % 2 ^ 3 = (0xF7 : Byte).toNat % 2 ^ 3 ∧
    (∃ t t' u u' c c', exec (.create false 3 0x03 0 0x07) State.reset = .next t ∧
      exec (.create false 3 0x0B 0xF8 0xF7) State.reset = .next t' ∧ digestBytes [0x31] t = .next u ∧
      digestBytes [0x31] t' = .next u' ∧ exec .getCrc u = .next c ∧ exec .getCrc u' = .next c') ∧
    (normalEngine.cfgValid = true ∧ normalEngine.Consistent ∧
      (0xF8 : Byte).toNat % 2 ^ normalEngine.width.toNat = normalEngine.sum.toNat % 2 ^ normalEngine.width.toNat ∧
      ∃ u u' c c', digestBytes [0x31] normalEngine = .next u ∧
        digestBytes [0x31] { normalEngine with sum := 0xF8 } = .next u' ∧ exec .getCrc u = .next c ∧
        exec .getCrc u' = .next c') :=
  ⟨by decide, by decide, by decide, ⟨_, _, _, _, _, _, rfl, rfl, rfl, rfl, rfl, rfl⟩, by decide, normalEngine_consistent,
    by decide, ⟨_, _, _, _, rfl, rfl, rfl, rfl⟩⟩
theorem witness_EveryStepKeepsTheInvariant :
    ∃ t, (reflectedEngine.presenting 0xC0000000).Inv ∧ reflectedEngine.cfgValid = true ∧
      step (reflectedEngine.presenting 0xC0000000) = .next t :=
  ⟨_, ⟨fun _ => by decide, by simp [State.presenting], by simp [State.presenting, reflectedEngine, State.reset]⟩, rfl, rfl⟩
/-- Two states that differ in unreadable registers agree: SUM before a construction, LUT without a table engine. -/
theorem witness_UnspecifiedRegistersAreUnobservable :
    (∃ t, State.reset.Agree { State.reset with sum := 0x55, width := 15 } ∧ step State.reset = .next t) ∧
    normalEngine.Agree { normalEngine with lut := buildTableNormal 7 } :=
  ⟨⟨_, ⟨rfl, rfl, rfl, rfl, rfl, fun _ _ => rfl, nofun, nofun⟩, rfl⟩,
    rfl, rfl, rfl, rfl, rfl, fun _ _ => rfl, fun _ => ⟨rfl, rfl, rfl, rfl, rfl, rfl, rfl, rfl, rfl, rfl⟩, nofun⟩
theorem witness_ObservationIgnoresUnspecifiedResetValues :
    (let s := { State.reset with sum := 0x55, width := 15, plan := programMoves [0x28070000] }
     s.cfgValid = false ∧ s.response = none ∧ s.observed = [] ∧ s.plan = programMoves [0x28070000]) ∧
    ∀ k : Byte, entry State.reset.stageLoaded k = false :=
  ⟨by decide, fun k => by simp [entry, State.reset]⟩

end Sys2Proof.Tests
end

section
/-! PROOFS. The state's own rules: what a command leaves behind, case by case; the invariant of a built engine and of the
responses (10_state R19 to R26, 30_encoding R59); and what a host cannot see (10_state R32, R33). -/

namespace Sys2Proof.Machine

/-! ### How a command and a word complete -/

/-- The ways a command takes a state to its next one: `exec_cases` as a relation, so that a proof about every command is a
case split with a name for each effect. -/
inductive Completes : Instr → State → State → Prop
  | error {i : Instr} {s : State} (e : ErrorCause) : Completes i s (s.present (errorWord e))
  | createTable (r : Bool) (p j x : Byte) {s : State} :
      Completes (.create r 8 p j x) s
        (((s.normalize r 8 j x).installTable (buildTable p r)).configure.present (successWord 0))
  | createBitwise (r : Bool) (wd : BitVec 4) (p j x : Byte) {s : State} (legal : widthLegal wd = true)
      (below : wd.toNat ≠ 8) :
      Completes (.create r wd p j x) s
        (((s.normalize r wd j x).installPoly (bitwisePoly r (highBitOf wd) p)).configure.present (successWord 0))
  | createT (r : Bool) (j x : Byte) {s : State} (complete : s.stageComplete = true) :
      Completes (.createT r 8 j x) s
        (((s.normalize r 8 j x).installTable s.stage).configure.present (successWord 0))
  | tload (k v : Byte) {s : State} : Completes (.tload k v) s ((s.stageWrite k v).present (successWord 0))
  | digest (b : Byte) {s : State} (configured : s.cfgValid = true) :
      Completes (.digest b) s ((s.setSum (s.digestedSum b)).present (successWord 0))
  | reset {s : State} (configured : s.cfgValid = true) :
      Completes .reset s ((s.setSum s.sum0).present (successWord 0))
  | getCrc {s : State} (configured : s.cfgValid = true) :
      Completes .getCrc s (s.present (successWord s.checksum))

/-- The next state of a command is one of those that `Completes` lists. -/
theorem exec_completes {i : Instr} {s t : State} (h : exec i s = .next t) : Completes i s t := by
  rcases exec_cases i s with ⟨e, h'⟩ | ⟨r, wd, p, j, x, rfl, legal, ⟨rfl, h'⟩ | ⟨below, h'⟩⟩ |
    ⟨r, j, x, rfl, complete, h'⟩ | ⟨k, v, rfl, h'⟩ | ⟨b, rfl, configured, h'⟩ | ⟨rfl, configured, h'⟩ |
    ⟨rfl, configured, h'⟩ <;> cases h'.symm.trans h
  · exact .error e
  · exact .createTable r p j x
  · exact .createBitwise r wd p j x legal below
  · exact .createT r j x complete
  · exact .tload k v
  · exact .digest b configured
  · exact .reset configured
  · exact .getCrc configured

/-- A word completes as the command it decodes to, or raises IllegalCommand (30_encoding R58). -/
theorem executeWord_completes {w : Word} {s t : State} (h : executeWord w s = .next t) :
    (∃ i, decode w = .command i ∧ Completes i s t) ∨ t = s.present (errorWord .illegalCommand) := by
  cases hw : decode w with
  | command i =>
    rw [executeWord_command hw] at h
    exact .inl ⟨i, rfl, exec_completes h⟩
  | illegal why =>
    rw [executeWord_illegal hw] at h
    cases h
    rw [errorWord_illegalCommand]
    exact .inr rfl

/-- No error answers with the word 0 of a construction's success (30_encoding R59). -/
theorem errorWord_ne_zero (e : ErrorCause) : errorWord e ≠ 0 := by
  cases e <;> simp

/-! ### The step where nothing transfers -/

/-- With no move left the engine holds (70_reset_and_hazards R113). -/
theorem step_noMove {s : State} (hp : s.plan = []) : step s = .next s := by
  simp [step, portEvent, hp]

/-- A pause is over at once. -/
theorem step_pause {s : State} {ms : List HostMove} (hp : s.plan = .pause :: ms) : step s = .next (s.planned ms) := by
  simp [step, portEvent, hp]

/-- A presented word does not transfer while a response waits (70_reset_and_hazards R113). -/
theorem step_issue_held {s : State} {w : Word} {ms : List HostMove} {r : Word} (hp : s.plan = .issue w :: ms)
    (hr : s.response = some r) : step s = .next s := by
  simp [step, portEvent, hp, commandPort, hr]

/-- A host that is ready for a response waits while there is none (70_reset_and_hazards R113). -/
theorem step_accept_held {s : State} {ms : List HostMove} (hp : s.plan = .accept :: ms) (hr : s.response = none) :
    step s = .next s := by
  simp [step, portEvent, hp, responsePort, hr]

/-! ### The state after reset -/

/-- At reset no entry of STAGE counts as loaded (10_state R33). -/
@[simp] theorem entry_reset_stageLoaded (k : Byte) : entry State.reset.stageLoaded k = false := by
  simp [entry, State.reset]

/-- Settles O16: the two flags are fields of the literal, and the loaded bits are `entry_reset_stageLoaded`. -/
theorem resetStateHasTheSpecsValues : Obligations.ResetStateHasTheSpecsValues :=
  ⟨rfl, entry_reset_stageLoaded, rfl⟩

/-- Settles O50: no engine exists at reset, and there is no response to have a form. -/
theorem resetMeetsTheInvariant : Obligations.ResetMeetsTheInvariant :=
  ⟨nofun, nofun, nofun⟩

/-! ### What each command may write -/

/-- Settles O32, by the ways a command completes. -/
theorem commandsWriteOnlyTheirRegisters : Obligations.CommandsWriteOnlyTheirRegisters := by
  intro i s t h
  cases exec_completes h with
  | error e => cases i <;> simp [State.sameRegisters, State.sameEngine]
  | createTable r p j x => simp
  | createBitwise r wd p j x => simp
  | createT r j x => simp
  | tload k v => simp [State.sameEngine]
  | digest b => simp [State.sameRegisters]
  | reset => simp [State.sameRegisters]
  | getCrc => simp [State.sameRegisters]

/-! ### CFG_VALID -/

/-- No command clears CFG_VALID (10_state R18). -/
theorem Completes.cfgValid_mono {i : Instr} {s t : State} (h : Completes i s t) (hs : s.cfgValid = true) :
    t.cfgValid = true := by
  cases h <;> simp [hs]

/-- A command that finds no engine and leaves one is a successful construction (10_state R18). -/
theorem Completes.construction_of_cfgValid {i : Instr} {s t : State} (h : Completes i s t) (hs : s.cfgValid = false)
    (ht : t.cfgValid = true) :
    t.response = some 0 ∧ ((∃ r wd p j x, i = .create r wd p j x) ∨ ∃ r wd j x, i = .createT r wd j x) := by
  cases h with
  | createTable r p j x => exact ⟨rfl, .inl ⟨r, 8, p, j, x, rfl⟩⟩
  | createBitwise r wd p j x => exact ⟨rfl, .inl ⟨r, wd, p, j, x, rfl⟩⟩
  | createT r j x => exact ⟨rfl, .inr ⟨r, 8, j, x, rfl⟩⟩
  | error | tload | digest | reset | getCrc => simp_all

/-- No word clears CFG_VALID (10_state R18). -/
theorem executeWord_cfgValid_mono {w : Word} {s t : State} (h : executeWord w s = .next t) (hs : s.cfgValid = true) :
    t.cfgValid = true := by
  obtain ⟨i, -, hi⟩ | rfl := executeWord_completes h
  · exact hi.cfgValid_mono hs
  · exact hs

/-- Only power-on reset clears CFG_VALID (10_state R18). -/
theorem rstN_of_step_clears_cfgValid {s t : State} (h : step s = .next t) (hs : s.cfgValid = true)
    (ht : t.cfgValid = false) : s.rstN = false := by
  obtain rfl | ⟨ms, -, rfl⟩ | ⟨ms, hp, -⟩ | ⟨ms, r, -, -, rfl⟩ | ⟨ms, w, -, -, hw⟩ := step_cases h
  case inr.inr.inl => exact (rstN_eq_false_iff s).2 ⟨ms, hp⟩
  case inr.inr.inr.inr => simp [executeWord_cfgValid_mono hw hs] at ht
  all_goals simp [hs] at ht

/-- A construction that answers success leaves an engine (10_state R18). -/
theorem cfgValid_of_construction {r : Bool} {wd : BitVec 4} {p j x : Byte} {s t : State}
    (h : exec (.create r wd p j x) s = .next t ∨ exec (.createT r wd j x) s = .next t) (ht : t.response = some 0) :
    t.cfgValid = true := by
  obtain h | h := h <;> cases exec_completes h
  case inl.error e => exact absurd (Option.some.inj ht) (errorWord_ne_zero e)
  case inr.error e => exact absurd (Option.some.inj ht) (errorWord_ne_zero e)
  all_goals rfl

/-- Settles O31: the four clauses, each by its own lemma. -/
theorem cfgValidGuardsTheDigestEngine : Obligations.CfgValidGuardsTheDigestEngine :=
  ⟨fun _ _ _ h => ⟨(exec_completes h).cfgValid_mono, (exec_completes h).construction_of_cfgValid⟩,
    fun _ _ => rstN_of_step_clears_cfgValid,
    fun _ _ _ _ _ _ _ => cfgValid_of_construction,
    fun s b hs => ⟨execDigest_notConfigured b s hs, execReset_notConfigured s hs, execGetCrc_notConfigured s hs⟩⟩

/-! ### LUT -/

/-- A command that changes LUT is a successful construction of a table engine, whose table LUT now is (10_state R30). -/
theorem Completes.table_of_lut_ne {i : Instr} {s t : State} (h : Completes i s t) (hne : t.lut ≠ s.lut) :
    t.cfgValid = true ∧ t.byTable = true ∧ t.width = 8 ∧ t.response = some 0 ∧
      ((∃ r p j x, i = .create r 8 p j x ∧ t.lut = buildTable p r) ∨
        ∃ r j x, i = .createT r 8 j x ∧ t.lut = s.stage) := by
  cases h with
  | createTable r p j x => exact ⟨rfl, rfl, rfl, rfl, .inl ⟨r, p, j, x, rfl, rfl⟩⟩
  | createT r j x => exact ⟨rfl, rfl, rfl, rfl, .inr ⟨r, j, x, rfl, rfl⟩⟩
  | error | createBitwise | tload | digest | reset | getCrc => exact absurd rfl hne

/-- Settles O33: a step that changes LUT executes a presented word, and the word's command is a construction. -/
theorem lutIsImmutableAfterConstruction : Obligations.LutIsImmutableAfterConstruction := by
  intro s t hrst h hne
  obtain rfl | ⟨ms, -, rfl⟩ | ⟨ms, hp, -⟩ | ⟨ms, r, -, -, rfl⟩ | ⟨ms, w, hp, -, hw⟩ := step_cases h
  case inr.inr.inl => simp [(rstN_eq_false_iff s).2 ⟨ms, hp⟩] at hrst
  case inr.inr.inr.inr =>
    obtain ⟨i, hi, hc⟩ | rfl := executeWord_completes hw
    · obtain ⟨hcfg, hbt, hwd, hresp, hlut⟩ := hc.table_of_lut_ne hne
      refine ⟨hcfg, hbt, hwd, hresp, w, (command_eq_some_iff s w).2 ⟨ms, hp⟩, ?_⟩
      obtain ⟨r, p, j, x, rfl, hl⟩ | ⟨r, j, x, rfl, hl⟩ := hlut
      · exact .inl ⟨r, p, j, x, hi, hl⟩
      · exact .inr ⟨r, j, x, hi, hl⟩
    · exact absurd rfl hne
  all_goals exact absurd rfl hne

/-! ### The operands of a consistent engine -/

/-- HIGH_BIT is bit WIDTH - 1 (10_state R25): sixteen widths, the legal ones read off. -/
theorem highBitOf_eq : ∀ {wd : BitVec 4}, widthLegal wd = true → highBitOf wd = BitVec.ofNat 8 (2 ^ (wd.toNat - 1)) := by
  decide

/-- MASK is the low WIDTH bits (10_state R26). -/
theorem maskOf_highBitOf_eq :
    ∀ {wd : BitVec 4}, widthLegal wd = true → maskOf (highBitOf wd) = BitVec.ofNat 8 (2 ^ wd.toNat - 1) := by
  decide

/-- The loop of `reflect_bits` sets no bit at or above `w`: `i` is halved and `j` doubled, so their product, which bounds
the bit that a round may set, never grows (40_normalizer R62). -/
theorem reflectLoop_lt_two_pow (n : Byte) {w : Nat} (rounds : Nat) :
    ∀ {i j out : Byte}, i.toNat * j.toNat < 2 ^ w → out.toNat < 2 ^ w →
      (reflectLoop n rounds i j out).toNat < 2 ^ w := by
  induction rounds with
  | zero => exact fun _ hout => hout
  | succ rounds ih =>
    intro i j out hij hout
    unfold reflectLoop
    split
    · exact hout
    next hi =>
      have hi' : 0 < i.toNat := by bv_omega
      have hj : j.toNat < 2 ^ w := (Nat.le_mul_of_pos_left _ hi').trans_lt hij
      refine ih (lt_of_le_of_lt ?_ hij) ?_
      · calc (i >>> 1).toNat * (j <<< 1).toNat
            ≤ i.toNat / 2 * (2 * j.toNat) := Nat.mul_le_mul (by simp [Nat.shiftRight_eq_div_pow]) (by bv_omega)
          _ = i.toNat / 2 * 2 * j.toNat := by ring
          _ ≤ i.toNat * j.toNat := Nat.mul_le_mul_right _ (Nat.div_mul_le_self _ 2)
      · split
        · simpa using Nat.or_lt_two_pow hout hj
        · exact hout

/-- Reflection at HIGH_BIT below `2 ^ w` gives a value below `2 ^ w` (40_normalizer R62). -/
theorem reflectBits_lt_two_pow {h : Byte} {w : Nat} (hh : h.toNat < 2 ^ w) (n : Byte) :
    (reflectBits h n).toNat < 2 ^ w :=
  reflectLoop_lt_two_pow n 8 (by simpa using hh) (by simp)

/-- The reflected polynomial has no bit at or above WIDTH (10_state R22). -/
theorem bitwisePoly_lt_two_pow {wd : BitVec 4} (legal : widthLegal wd = true) (p : Byte) :
    (bitwisePoly true (highBitOf wd) p).toNat < 2 ^ wd.toNat := by
  refine reflectBits_lt_two_pow ?_ p
  have hlt : 2 ^ (wd.toNat - 1) < 2 ^ wd.toNat :=
    Nat.pow_lt_pow_right (by omega) (by have := ((widthLegal_iff wd).1 legal).1; omega)
  rw [highBitOf_eq legal, BitVec.toNat_ofNat]
  exact (Nat.mod_le _ _).trans_lt hlt

/-! ### The invariant -/

/-- A construction at width 8 leaves a consistent table engine (40_normalizer R69). -/
theorem consistent_tableEngine (r : Bool) (j x : Byte) (table : Indexed Byte) (s : State) :
    ((s.normalize r 8 j x).installTable table).configure.Consistent := by
  intro _
  simp [highBitOf, maskOf]

/-- A construction at a legal width below 8 leaves a consistent bitwise engine (40_normalizer R68). -/
theorem consistent_bitwiseEngine (r : Bool) {wd : BitVec 4} (p j x : Byte) (s : State) (legal : widthLegal wd = true)
    (below : wd.toNat ≠ 8) :
    ((s.normalize r wd j x).installPoly (bitwisePoly r (highBitOf wd) p)).configure.Consistent := by
  intro _
  obtain ⟨h1, h8⟩ := (widthLegal_iff wd).1 legal
  refine ⟨h1, h8, highBitOf_eq legal, maskOf_highBitOf_eq legal, by simp [below], nofun, fun _ hr => ?_⟩
  obtain rfl : r = true := hr
  exact bitwisePoly_lt_two_pow legal p

/-- A success word has the form of R59. -/
theorem responseForm_successWord (d : Byte) : ResponseForm (successWord d) := .inl ⟨d, rfl⟩

/-- An error word has the form of R59, with the codes of 60_exceptions R95. -/
theorem responseForm_errorWord (e : ErrorCause) : ResponseForm (errorWord e) :=
  .inr ⟨(errorCode e).toNat, by cases e <;> decide⟩

/-- Presenting a formed response over a consistent engine meets the invariant. -/
theorem State.Inv.of_present {s : State} {r : Word} (hc : s.Consistent) (hr : ResponseForm r)
    (ho : ∀ r ∈ s.observed, ResponseForm r) : (s.present r).Inv :=
  ⟨hc, fun _ h => Option.some.inj h ▸ hr, ho⟩

/-- Accepting the waiting response moves its form to the record. -/
theorem State.Inv.accepted {s : State} {r : Word} (hs : s.Inv) (hr : s.response = some r) : (s.accepted r).Inv := by
  obtain ⟨hc, hw, ho⟩ := hs
  refine ⟨hc, nofun, fun r' hr' => ?_⟩
  obtain h | h := List.mem_append.1 hr'
  · exact ho r' h
  · exact List.mem_singleton.1 h ▸ hw r hr

/-- Every command keeps the invariant. -/
theorem Completes.inv {i : Instr} {s t : State} (h : Completes i s t) (hs : s.Inv) : t.Inv := by
  obtain ⟨hc, -, ho⟩ := hs
  cases h with
  | error e => exact .of_present hc (responseForm_errorWord e) ho
  | createTable r p j x => exact .of_present (consistent_tableEngine r j x _ s) (responseForm_successWord 0) ho
  | createBitwise r wd p j x legal below =>
    exact .of_present (consistent_bitwiseEngine r p j x s legal below) (responseForm_successWord 0) ho
  | createT r j x => exact .of_present (consistent_tableEngine r j x _ s) (responseForm_successWord 0) ho
  | tload k v => exact .of_present hc (responseForm_successWord 0) ho
  | digest b => exact .of_present hc (responseForm_successWord 0) ho
  | reset => exact .of_present hc (responseForm_successWord 0) ho
  | getCrc => exact .of_present hc (responseForm_successWord s.checksum) ho

/-- Every word keeps the invariant. -/
theorem executeWord_inv {w : Word} {s t : State} (h : executeWord w s = .next t) (hs : s.Inv) : t.Inv := by
  obtain ⟨i, -, hi⟩ | rfl := executeWord_completes h
  · exact hi.inv hs
  · obtain ⟨hc, -, ho⟩ := hs
    exact .of_present hc (responseForm_errorWord .illegalCommand) ho

/-- Settles O49: the host's own moves keep the engine, power-on reset starts again at reset's invariant, an accepted
response was formed while it waited, and a command keeps the invariant as it completes. -/
theorem everyStepKeepsTheInvariant : Obligations.EveryStepKeepsTheInvariant := by
  intro s t hs h
  obtain rfl | ⟨ms, -, rfl⟩ | ⟨ms, -, rfl⟩ | ⟨ms, r, -, hr, rfl⟩ | ⟨ms, w, -, -, hw⟩ := step_cases h
  · exact hs
  · exact hs
  · exact resetMeetsTheInvariant
  · exact State.Inv.accepted (s := s.planned ms) hs hr
  · exact executeWord_inv (s := s.planned ms) hw hs

/-! ### Noninterference: agreeing states stay in agreement -/

/-- Both outcomes are next states, and these agree. -/
def NextAgree (o o' : Host.Outcome State Fault Refusal) : Prop :=
  ∃ u u', o = .next u ∧ o' = .next u' ∧ u.Agree u'

/-- A state agrees with itself. -/
theorem State.Agree.refl (s : State) : s.Agree s :=
  ⟨rfl, rfl, rfl, rfl, rfl, fun _ _ => rfl, fun _ => ⟨rfl, rfl, rfl, rfl, rfl, rfl, rfl, rfl, rfl, rfl⟩, fun _ _ => rfl⟩

section Agree

variable {s t : State}

theorem State.Agree.next (h : s.Agree t) : NextAgree (.next s) (.next t) := ⟨s, t, rfl, rfl, h⟩

theorem State.Agree.cfgValid_eq (h : s.Agree t) : s.cfgValid = t.cfgValid := h.1

theorem State.Agree.response_eq (h : s.Agree t) : s.response = t.response := by
  obtain ⟨-, -, hresp, -⟩ := h
  exact hresp

theorem State.Agree.plan_eq (h : s.Agree t) : s.plan = t.plan := by
  obtain ⟨-, -, -, hplan, -⟩ := h
  exact hplan

theorem State.Agree.observed_eq (h : s.Agree t) : s.observed = t.observed := by
  obtain ⟨-, -, -, -, hobs, -⟩ := h
  exact hobs

/-- The same response keeps agreement. -/
theorem State.Agree.present (h : s.Agree t) (r : Word) : (s.present r).Agree (t.present r) := by
  obtain ⟨hcfg, hloaded, -, hplan, hobs, hstage, heng, hlut⟩ := h
  exact ⟨hcfg, hloaded, rfl, hplan, hobs, hstage, heng, hlut⟩

/-- The same moves keep agreement. -/
theorem State.Agree.planned (h : s.Agree t) (ms : List HostMove) : (s.planned ms).Agree (t.planned ms) := by
  obtain ⟨hcfg, hloaded, hresp, -, hobs, hstage, heng, hlut⟩ := h
  exact ⟨hcfg, hloaded, hresp, rfl, hobs, hstage, heng, hlut⟩

/-- The same accepted response keeps agreement. -/
theorem State.Agree.accepted (h : s.Agree t) (r : Word) : (s.accepted r).Agree (t.accepted r) := by
  obtain ⟨hcfg, hloaded, -, hplan, hobs, hstage, heng, hlut⟩ := h
  exact ⟨hcfg, hloaded, rfl, hplan, congrArg (· ++ [r]) hobs, hstage, heng, hlut⟩

/-- The same sum keeps agreement. -/
theorem State.Agree.setSum (h : s.Agree t) (v : Byte) : (s.setSum v).Agree (t.setSum v) := by
  obtain ⟨hcfg, hloaded, hresp, hplan, hobs, hstage, heng, hlut⟩ := h
  refine ⟨hcfg, hloaded, hresp, hplan, hobs, hstage, fun hv => ?_, hlut⟩
  obtain ⟨h1, h2, h3, h4, h5, h6, h7, h8, h9, -⟩ := heng hv
  exact ⟨h1, h2, h3, h4, h5, h6, h7, h8, h9, rfl⟩

/-- The same entry loaded keeps agreement: the other loaded entries agreed before. -/
theorem State.Agree.stageWrite (h : s.Agree t) (k v : Byte) : (s.stageWrite k v).Agree (t.stageWrite k v) := by
  obtain ⟨hcfg, hloaded, hresp, hplan, hobs, hstage, heng, hlut⟩ := h
  refine ⟨hcfg, by simp [hloaded], hresp, hplan, hobs, fun j hj => ?_, heng, hlut⟩
  by_cases hjk : j = k
  · simp [hjk]
  · simp only [State.stageWrite_stage, State.stageWrite_stageLoaded, entry_setEntry_other _ _ _ _ hjk] at hj ⊢
    exact hstage j hj

/-- The same table engine built over agreeing states: S1 to S11 are written, so they agree whatever they held. -/
theorem State.Agree.tableEngine (h : s.Agree t) (r : Bool) (wd : BitVec 4) (j x : Byte) (table : Indexed Byte) :
    ((s.normalize r wd j x).installTable table).configure.Agree
      ((t.normalize r wd j x).installTable table).configure := by
  obtain ⟨-, hloaded, hresp, hplan, hobs, hstage, -, -⟩ := h
  exact ⟨rfl, hloaded, hresp, hplan, hobs, hstage, fun _ => ⟨rfl, rfl, rfl, rfl, rfl, rfl, rfl, rfl, rfl, rfl⟩,
    fun _ _ => rfl⟩

/-- The same bitwise engine built over agreeing states: S1 to S10 are written, and LUT is not readable. -/
theorem State.Agree.bitwiseEngine (h : s.Agree t) (r : Bool) (wd : BitVec 4) (j x p : Byte) :
    ((s.normalize r wd j x).installPoly p).configure.Agree ((t.normalize r wd j x).installPoly p).configure := by
  obtain ⟨-, hloaded, hresp, hplan, hobs, hstage, -, -⟩ := h
  exact ⟨rfl, hloaded, hresp, hplan, hobs, hstage, fun _ => ⟨rfl, rfl, rfl, rfl, rfl, rfl, rfl, rfl, rfl, rfl⟩, nofun⟩

/-- Agreeing states have the same staged table as soon as it is complete. -/
theorem State.Agree.stage_eq (h : s.Agree t) (complete : s.stageComplete = true) : s.stage = t.stage := by
  obtain ⟨-, -, -, -, -, hstage, -, -⟩ := h
  exact indexed_ext fun k => hstage k ((stageComplete_iff s).1 complete k)

theorem State.Agree.stageComplete_eq (h : s.Agree t) : s.stageComplete = t.stageComplete := by
  obtain ⟨-, hloaded, -⟩ := h
  simp [State.stageComplete, hloaded]

/-- Agreeing engines digest a byte to the same sum: LUT is read on the table path alone (42_digest_engine R82). -/
theorem State.Agree.digestedSum_eq (h : s.Agree t) (hs : s.cfgValid = true) (b : Byte) :
    s.digestedSum b = t.digestedSum b := by
  obtain ⟨-, -, -, -, -, -, heng, hlut⟩ := h
  obtain ⟨-, -, hrefl, htab, hpoly, -, -, hhb, -, hsum⟩ := heng hs
  cases hb : s.byTable with
  | true => simp [State.digestedSum, State.tableRead, htab, hsum, hb, hlut hs hb]
  | false => cases hr : s.reflect <;> simp [State.digestedSum, hrefl, htab, hpoly, hhb, hsum, hb, hr]

/-- Agreeing engines have the same starting sum. -/
theorem State.Agree.sum0_eq (h : s.Agree t) (hs : s.cfgValid = true) : s.sum0 = t.sum0 := by
  obtain ⟨-, -, -, -, -, -, heng, -⟩ := h
  obtain ⟨-, -, hrefl, -, -, hinit, -, hhb, -, -⟩ := heng hs
  simp [State.sum0, hrefl, hinit, hhb]

/-- Agreeing engines have the same checksum. -/
theorem State.Agree.checksum_eq (h : s.Agree t) (hs : s.cfgValid = true) : s.checksum = t.checksum := by
  obtain ⟨-, -, -, -, -, -, heng, -⟩ := h
  obtain ⟨-, -, hrefl, htab, -, -, hxor, hhb, hmask, hsum⟩ := heng hs
  simp [State.checksum, hrefl, htab, hxor, hhb, hmask, hsum]

/-- CREATE checks its operand alone, and what it builds agrees. -/
theorem execCreate_agree (h : s.Agree t) (r : Bool) (wd : BitVec 4) (p j x : Byte) :
    NextAgree (execCreate r wd p j x s) (execCreate r wd p j x t) := by
  cases legal : widthLegal wd with
  | false => simpa only [execCreate_illegal _ _ _ _ _ _ legal] using (h.present _).next
  | true =>
    by_cases h8 : wd.toNat = 8
    · obtain rfl : wd = 8 := BitVec.eq_of_toNat_eq h8
      exact ((h.tableEngine ..).present _).next
    · simpa only [execCreate_bitwise _ _ _ _ _ _ legal h8] using ((h.bitwiseEngine ..).present _).next

/-- CREATE_T checks its operand and STAGE_LOADED, and reads STAGE only once all of it is loaded. -/
theorem execCreateT_agree (h : s.Agree t) (r : Bool) (wd : BitVec 4) (j x : Byte) :
    NextAgree (execCreateT r wd j x s) (execCreateT r wd j x t) := by
  by_cases h8 : wd.toNat = 8
  · obtain rfl : wd = 8 := BitVec.eq_of_toNat_eq h8
    cases complete : s.stageComplete with
    | false =>
      rw [execCreateT_incomplete _ _ _ _ complete, execCreateT_incomplete _ _ _ _ (h.stageComplete_eq ▸ complete)]
      exact (h.present _).next
    | true =>
      rw [execCreateT_complete _ _ _ _ complete, execCreateT_complete _ _ _ _ (h.stageComplete_eq ▸ complete),
        ← h.stage_eq complete]
      exact ((h.tableEngine ..).present _).next
  · simpa only [execCreateT_width _ _ _ _ _ h8] using (h.present _).next

/-- A command that raises NotConfigured without an engine answers agreeing states alike if it does so with one. -/
theorem State.Agree.nextAgree_of_guarded (h : s.Agree t) {f : State → Host.Outcome State Fault Refusal}
    (without : ∀ u : State, u.cfgValid = false → f u = .next (u.present 0x80000300))
    (within : s.cfgValid = true → t.cfgValid = true → NextAgree (f s) (f t)) : NextAgree (f s) (f t) := by
  cases hs : s.cfgValid with
  | false =>
    rw [without s hs, without t (h.cfgValid_eq ▸ hs)]
    exact (h.present _).next
  | true => exact within hs (h.cfgValid_eq ▸ hs)

theorem execDigest_agree (h : s.Agree t) (b : Byte) : NextAgree (execDigest b s) (execDigest b t) :=
  h.nextAgree_of_guarded (execDigest_notConfigured b) fun hs ht => by
    rw [execDigest_configured b s hs, execDigest_configured b t ht, h.digestedSum_eq hs]
    exact ((h.setSum _).present _).next

theorem execReset_agree (h : s.Agree t) : NextAgree (execReset s) (execReset t) :=
  h.nextAgree_of_guarded execReset_notConfigured fun hs ht => by
    rw [execReset_configured s hs, execReset_configured t ht, h.sum0_eq hs]
    exact ((h.setSum _).present _).next

theorem execGetCrc_agree (h : s.Agree t) : NextAgree (execGetCrc s) (execGetCrc t) :=
  h.nextAgree_of_guarded execGetCrc_notConfigured fun hs ht => by
    rw [execGetCrc_configured s hs, execGetCrc_configured t ht, h.checksum_eq hs]
    exact (h.present _).next

/-- A command answers agreeing states alike: what it checks is visible, and what it reads is visible once it is read. -/
theorem exec_agree (h : s.Agree t) (i : Instr) : NextAgree (exec i s) (exec i t) := by
  cases i with
  | reserved000 payload => exact (h.present _).next
  | reserved111 payload => exact (h.present _).next
  | create r wd p j x => exact execCreate_agree h r wd p j x
  | createT r wd j x => exact execCreateT_agree h r wd j x
  | tload k v => exact ((h.stageWrite k v).present _).next
  | digest b => exact execDigest_agree h b
  | reset => exact execReset_agree h
  | getCrc => exact execGetCrc_agree h

/-- A word answers agreeing states alike. -/
theorem executeWord_agree (h : s.Agree t) (w : Word) : NextAgree (executeWord w s) (executeWord w t) := by
  cases hw : decode w with
  | command i => simpa only [executeWord_command hw] using exec_agree h i
  | illegal why => simpa only [executeWord_illegal hw] using (h.present _).next

/-- Agreeing states step to agreeing states: the same host makes the same move at the same ports. -/
theorem step_agree (h : s.Agree t) : NextAgree (step s) (step t) := by
  have hplan := h.plan_eq
  have hresp := h.response_eq
  cases hp : s.plan with
  | nil =>
    rw [step_noMove hp, step_noMove (hplan ▸ hp)]
    exact h.next
  | cons m ms =>
    cases m with
    | pause =>
      rw [step_pause hp, step_pause (hplan ▸ hp)]
      exact (h.planned ms).next
    | powerOnReset =>
      rw [step_powerOn hp, step_powerOn (hplan ▸ hp)]
      exact (State.Agree.refl _).next
    | issue w =>
      cases hr : s.response with
      | none =>
        rw [step_issue hp hr, step_issue (hplan ▸ hp) (hresp ▸ hr)]
        exact executeWord_agree (h.planned ms) w
      | some r =>
        rw [step_issue_held hp hr, step_issue_held (hplan ▸ hp) (hresp ▸ hr)]
        exact h.next
    | accept =>
      cases hr : s.response with
      | none =>
        rw [step_accept_held hp hr, step_accept_held (hplan ▸ hp) (hresp ▸ hr)]
        exact h.next
      | some r =>
        rw [step_accept hp hr, step_accept (hplan ▸ hp) (hresp ▸ hr)]
        exact ((h.planned ms).accepted r).next

end Agree

/-- Settles O51: agreement is kept by every step, and it covers the response and the record. -/
theorem unspecifiedRegistersAreUnobservable : Obligations.UnspecifiedRegistersAreUnobservable := by
  intro s t s' h hs'
  obtain ⟨u, t', hu, ht', hagree⟩ := step_agree h
  cases hu.symm.trans hs'
  exact ⟨t', ht', hagree, hagree.response_eq, hagree.observed_eq⟩

/-! ### Runs -/

/-- A run's first step. -/
theorem run_succ {s t : State} (h : step s = .next t) (n : Nat) : core.run (n + 1) s = core.run n t := by
  have hcore : core.step s = .next t := h
  simp only [Host.Core.run, hcore]

/-- Agreeing states run to agreeing states, by induction on the steps. -/
theorem run_agree (n : Nat) : ∀ {s t : State}, s.Agree t → NextAgree (core.run n s) (core.run n t) := by
  induction n with
  | zero => exact fun h => h.next
  | succ n ih =>
    intro s t h
    obtain ⟨u, u', hu, hu', hagree⟩ := step_agree h
    rw [run_succ hu, run_succ hu']
    exact ih hagree

/-- Any state with the values that the spec gives for reset agrees with `State.reset`, whatever S2 to S12 hold
(10_state R33). -/
theorem agree_reset {s : State} (hcfg : s.cfgValid = false) (hloaded : ∀ k : Byte, entry s.stageLoaded k = false)
    (hresp : s.response = none) (hobs : s.observed = []) : s.Agree { State.reset with plan := s.plan } := by
  refine ⟨hcfg, ?_, hresp, rfl, hobs, ?_, ?_, ?_⟩
  · exact indexed_ext fun k => (hloaded k).trans (entry_reset_stageLoaded k).symm
  · simp [hloaded]
  · simp [hcfg]
  · simp [hcfg]

/-- Settles O52: the two states agree, so their runs do, and agreement covers the record. -/
theorem observationIgnoresUnspecifiedResetValues : Obligations.ObservationIgnoresUnspecifiedResetValues := by
  intro s n ws hcfg hloaded hresp hobs hplan
  obtain ⟨t, u, ht, hu, hagree⟩ := run_agree n (agree_reset hcfg hloaded hresp hobs)
  rw [hplan] at hu
  exact ⟨t, u, ht, hu, hagree.observed_eq⟩

end Sys2Proof.Machine
end

section
/-! PROOFS. What a successful construction leaves behind, the table as a copy (20_memory R48), and what a repeated command
changes (20_memory R43). -/

namespace Sys2Proof.Machine

/-! ### What a successful construction leaves -/

/-- A CREATE that answers success built a table engine at width 8, or a bitwise engine at a legal width below it
(40_normalizer R71). -/
theorem create_of_success {r : Bool} {wd : BitVec 4} {p j x : Byte} {s t : State}
    (h : exec (.create r wd p j x) s = .next t) (ht : t.response = some 0) :
    (wd = 8 ∧ t = (((s.normalize r 8 j x).installTable (buildTable p r)).configure).present 0) ∨
    (widthLegal wd = true ∧ wd.toNat ≠ 8 ∧
      t = (((s.normalize r wd j x).installPoly (bitwisePoly r (highBitOf wd) p)).configure).present 0) := by
  cases exec_completes h with
  | error e => exact absurd (Option.some.inj ht) (errorWord_ne_zero e)
  | createTable => exact .inl ⟨rfl, rfl⟩
  | createBitwise _ _ _ _ _ legal below => exact .inr ⟨legal, below, rfl⟩

/-- A CREATE_T that answers success built the engine of the staged table at width 8 (40_normalizer R72). -/
theorem createT_of_success {r : Bool} {wd : BitVec 4} {j x : Byte} {s t : State}
    (h : exec (.createT r wd j x) s = .next t) (ht : t.response = some 0) :
    wd = 8 ∧ t = (((s.normalize r 8 j x).installTable s.stage).configure).present 0 := by
  cases exec_completes h with
  | error e => exact absurd (Option.some.inj ht) (errorWord_ne_zero e)
  | createT => exact ⟨rfl, rfl⟩

/-- S1 to S10 of a table engine are fixed by the operands (20_memory R43). -/
theorem sameEngine_tableEngine (r : Bool) (wd : BitVec 4) (j x : Byte) (table table' : Indexed Byte) (s s' : State) :
    ((s.normalize r wd j x).installTable table).configure.sameEngine
      ((s'.normalize r wd j x).installTable table').configure := by
  simp [State.sameEngine]

/-- S1 to S10 of a bitwise engine are fixed by the operands (20_memory R43). -/
theorem sameEngine_bitwiseEngine (r : Bool) (wd : BitVec 4) (p j x : Byte) (s s' : State) :
    ((s.normalize r wd j x).installPoly p).configure.sameEngine ((s'.normalize r wd j x).installPoly p).configure := by
  simp [State.sameEngine]

/-! ### TLOAD -/

/-- TLOAD writes one entry of STAGE, whatever the state (40_normalizer R73). -/
theorem tload_next {k v : Byte} {s t : State} (h : exec (.tload k v) s = .next t) : t = (s.stageWrite k v).present 0 := by
  cases (execTload_eq k v s).symm.trans h
  rfl

/-- The second of two equal writes to an array changes nothing. -/
@[simp] theorem setEntry_setEntry {α : Type} (t : Indexed α) (k : Byte) (v w : α) :
    setEntry (setEntry t k v) k w = setEntry t k w :=
  Vector.set_set ..

/-- TLOAD is idempotent (20_memory R43). -/
theorem tload_idempotent {k v : Byte} {s t : State} (h : exec (.tload k v) s = .next t) :
    exec (.tload k v) t = .next t := by
  obtain rfl := tload_next h
  refine (execTload_eq k v _).trans ?_
  simp [State.stageWrite, State.present]

/-! ### RESET -/

/-- RESET is idempotent (20_memory R43): the starting sum does not depend on SUM. -/
theorem reset_idempotent {s t : State} (h : exec .reset s = .next t) : exec .reset t = .next t := by
  cases hs : s.cfgValid with
  | false =>
    cases (execReset_notConfigured s hs).symm.trans h
    exact execReset_notConfigured _ hs
  | true =>
    cases (execReset_configured s hs).symm.trans h
    exact execReset_configured _ hs

/-! ### The two constructions -/

/-- A successful CREATE leaves the same S1 to S10 from any state, and the same LUT at width 8 (20_memory R43). -/
theorem create_repeats {r : Bool} {wd : BitVec 4} {p j x : Byte} {s s' t t' : State}
    (h : exec (.create r wd p j x) s = .next t) (h' : exec (.create r wd p j x) s' = .next t')
    (ht : t.response = some 0) : t.sameEngine t' ∧ (wd.toNat = 8 → t.lut = t'.lut) := by
  obtain ⟨rfl, rfl⟩ | ⟨legal, below, rfl⟩ := create_of_success h ht
  · cases (execCreate_table r p j x s').symm.trans h'
    exact ⟨sameEngine_tableEngine r 8 j x (buildTable p r) (buildTable p r) s s', fun _ => rfl⟩
  · cases (execCreate_bitwise r wd p j x s' legal below).symm.trans h'
    exact ⟨sameEngine_bitwiseEngine r wd (bitwisePoly r (highBitOf wd) p) j x s s', fun h8 => absurd h8 below⟩

/-- A successful CREATE_T leaves the same S1 to S11 from any two states with the same STAGE (20_memory R43). -/
theorem createT_repeats {r : Bool} {wd : BitVec 4} {j x : Byte} {s s' t t' : State} (hstage : s.stage = s'.stage)
    (h : exec (.createT r wd j x) s = .next t) (h' : exec (.createT r wd j x) s' = .next t')
    (ht : t.response = some 0) (ht' : t'.response = some 0) : t.sameEngine t' ∧ t.lut = t'.lut := by
  obtain ⟨rfl, rfl⟩ := createT_of_success h ht
  obtain ⟨-, rfl⟩ := createT_of_success h' ht'
  exact ⟨sameEngine_tableEngine r 8 j x s.stage s'.stage s s', hstage⟩

/-! ### DIGEST -/

/-- DIGEST is not idempotent (20_memory R43): on the engine of CREATE with width 4 and polynomial 3, SUM is 0x03 after one
byte 0x01 and 0x5C after the same byte again. -/
theorem digest_not_idempotent :
    ∃ (b : Byte) (s t u : State), exec (.digest b) s = .next t ∧ exec (.digest b) t = .next u ∧ u.sum ≠ t.sum :=
  ⟨1, ((State.reset.normalize false 4 0 0).installPoly 3).configure, _, _,
    execDigest_configured 1 _ rfl, execDigest_configured 1 _ rfl, by decide +kernel⟩

/-! ### The two statements -/

/-- Settles O34: LUT is STAGE by `createT_of_success`, and the frames of the commands give the rest. -/
theorem lutIsACopyOfStage : Obligations.LutIsACopyOfStage := by
  refine ⟨fun r i x s t h ht => ?_, fun r i x k v s t u _ hu => ?_, fun r wd p i x s t h => ?_,
    fun i s t h hne => ?_, fun i s t h => ?_⟩
  · obtain ⟨-, rfl⟩ := createT_of_success h ht
    exact ⟨rfl, rfl⟩
  · obtain rfl := tload_next hu
    simp
  · obtain ⟨-, -, hstage, -⟩ := commandsWriteOnlyTheirRegisters _ s t h
    exact hstage
  · obtain ⟨-, -, -, -, ⟨r, p, j, x, hi, -⟩ | ⟨r, j, x, hi, -⟩⟩ := (exec_completes h).table_of_lut_ne hne
    · exact .inl ⟨r, 8, p, j, x, hi⟩
    · exact .inr ⟨r, 8, j, x, hi⟩
  · obtain ⟨hplan, -⟩ := commandsWriteOnlyTheirRegisters i s t h
    exact hplan

/-- Settles O35: each of the rule's bullets by its own lemma, GET_CRC by its frame. -/
theorem commandsRepeatAsTheSpecSays : Obligations.CommandsRepeatAsTheSpecSays := by
  refine ⟨fun s t h => ?_, fun _ _ => reset_idempotent, fun _ _ _ _ => tload_idempotent,
    fun _ _ _ _ _ _ _ _ _ => create_repeats, fun _ _ _ _ _ _ _ _ => createT_repeats, digest_not_idempotent⟩
  obtain ⟨-, -, hsame⟩ := commandsWriteOnlyTheirRegisters .getCrc s t h
  exact hsame

end Sys2Proof.Machine
end

section
/-! PROOFS. The encoding (30_encoding R50 to R58): the number that a command's word is, the decode function row by row, and
the one fact that ties the two: a word decodes to a command exactly when it is the command's number. -/

namespace Sys2Proof

/-! ### The number of a command's word -/

/-- The number whose base-2 digits are the command's fields at their places (30_encoding R52 to R55). -/
def Instr.wordNat : Instr → Nat
  | .reserved000 payload => payload.toNat
  | .create reflect width polynomial initial finalXor =>
    2 ^ 29 * 1 + 2 ^ 28 * reflect.toNat + 2 ^ 24 * width.toNat + 2 ^ 16 * polynomial.toNat + 2 ^ 8 * initial.toNat +
      finalXor.toNat
  | .createT reflect width initial finalXor =>
    2 ^ 29 * 2 + 2 ^ 28 * reflect.toNat + 2 ^ 24 * width.toNat + 2 ^ 8 * initial.toNat + finalXor.toNat
  | .tload index value => 2 ^ 29 * 3 + 2 ^ 8 * index.toNat + value.toNat
  | .digest byte => 2 ^ 29 * 4 + byte.toNat
  | .reset => 2 ^ 29 * 5
  | .getCrc => 2 ^ 29 * 6
  | .reserved111 payload => 2 ^ 29 * 7 + payload.toNat

/-- A field placed from bit `lo` on that ends at or below bit `m` is worth less than `2 ^ m`. -/
theorem two_pow_mul_toNat_lt {n lo m : Nat} (v : BitVec n) (h : lo + n ≤ m) : 2 ^ lo * v.toNat < 2 ^ m :=
  calc 2 ^ lo * v.toNat < 2 ^ lo * 2 ^ n := Nat.mul_lt_mul_of_pos_left v.isLt (Nat.two_pow_pos lo)
    _ = 2 ^ (lo + n) := (Nat.pow_add ..).symm
    _ ≤ 2 ^ m := Nat.pow_le_pow_right (by decide) h

/-- A field at its place is worth its value times `2 ^ lo`, when it lies inside the word. -/
theorem toNat_place {n lo : Nat} (v : BitVec n) (h : lo + n ≤ 32) : (place lo v).toNat = 2 ^ lo * v.toNat := by
  have hv := two_pow_mul_toNat_lt v h
  have hn : v.toNat < 2 ^ 32 := (Nat.le_mul_of_pos_left _ (Nat.two_pow_pos lo)).trans_lt hv
  rw [place, BitVec.toNat_shiftLeft, BitVec.toNat_setWidth, Nat.mod_eq_of_lt hn, Nat.shiftLeft_eq, Nat.mul_comm,
    Nat.mod_eq_of_lt hv]

/-- A field placed below the fields already in a word is added to them: the word before is a multiple of `2 ^ m`, and the
field ends at or below bit `m`. -/
theorem toNat_or_place {n lo m k : Nat} {acc : Word} (hacc : acc.toNat = 2 ^ m * k) (v : BitVec n) (h : lo + n ≤ m)
    (hm : m ≤ 32) : (acc ||| place lo v).toNat = 2 ^ lo * (2 ^ (m - lo) * k + v.toNat) := by
  rw [BitVec.toNat_or, toNat_place v (by omega), hacc, ← Nat.two_pow_add_eq_or_of_lt (two_pow_mul_toNat_lt v h),
    Nat.mul_add, ← Nat.mul_assoc, ← Nat.pow_add, Nat.add_sub_cancel' (by omega)]

/-- The word of a command is its number: each field is added below those already placed. -/
theorem toNat_encode (i : Instr) : (encode i).toNat = i.wordNat := by
  cases i with
  | reserved000 payload =>
    refine (toNat_or_place (toNat_place _ (by decide)) payload (by decide) (by decide)).trans ?_
    simp [Instr.wordNat]
  | create r wd p j x =>
    have hr := toNat_or_place (toNat_place (lo := 29) 1#3 (by decide)) (lo := 28) (.ofBool r) (by decide) (by decide)
    have hwd := toNat_or_place hr (lo := 24) wd (by decide) (by decide)
    have hp := toNat_or_place hwd (lo := 16) p (by decide) (by decide)
    have hj := toNat_or_place hp (lo := 8) j (by decide) (by decide)
    refine (toNat_or_place hj x (by decide) (by decide)).trans ?_
    simp only [Instr.wordNat, BitVec.toNat_ofBool, BitVec.toNat_ofNat]
    omega
  | createT r wd j x =>
    have hr := toNat_or_place (toNat_place (lo := 29) 2#3 (by decide)) (lo := 28) (.ofBool r) (by decide) (by decide)
    have hwd := toNat_or_place hr (lo := 24) wd (by decide) (by decide)
    have hj := toNat_or_place hwd (lo := 8) j (by decide) (by decide)
    refine (toNat_or_place hj x (by decide) (by decide)).trans ?_
    simp only [Instr.wordNat, BitVec.toNat_ofBool, BitVec.toNat_ofNat]
    omega
  | tload k v =>
    have hk := toNat_or_place (toNat_place (lo := 29) 3#3 (by decide)) (lo := 8) k (by decide) (by decide)
    refine (toNat_or_place hk v (by decide) (by decide)).trans ?_
    simp only [Instr.wordNat, BitVec.toNat_ofNat]
    omega
  | digest b =>
    refine (toNat_or_place (toNat_place _ (by decide)) b (by decide) (by decide)).trans ?_
    simp [Instr.wordNat]
  | reset => rfl
  | getCrc => rfl
  | reserved111 payload =>
    refine (toNat_or_place (toNat_place _ (by decide)) payload (by decide) (by decide)).trans ?_
    simp [Instr.wordNat]

/-! ### The fields of a word -/

section Fields

variable (w : Word)

@[simp] theorem toNat_reflectField : (reflectField w).toNat = w.toNat / 2 ^ 28 % 2 := by
  rw [reflectField, ← BitVec.testBit_toNat, Nat.toNat_testBit]

@[simp] theorem toNat_widthField : (widthField w).toNat = w.toNat / 2 ^ 24 % 2 ^ 4 := by
  rw [widthField, BitVec.extractLsb'_toNat, Nat.shiftRight_eq_div_pow]

@[simp] theorem toNat_polynomialField : (polynomialField w).toNat = w.toNat / 2 ^ 16 % 2 ^ 8 := by
  rw [polynomialField, BitVec.extractLsb'_toNat, Nat.shiftRight_eq_div_pow]

@[simp] theorem toNat_highByteField : (highByteField w).toNat = w.toNat / 2 ^ 8 % 2 ^ 8 := by
  rw [highByteField, BitVec.extractLsb'_toNat, Nat.shiftRight_eq_div_pow]

@[simp] theorem toNat_lowByteField : (lowByteField w).toNat = w.toNat % 2 ^ 8 := rfl

@[simp] theorem toNat_payloadField : (payloadField w).toNat = w.toNat % 2 ^ 29 := rfl

end Fields

/-- OP is what the word's number holds above bit 28 (30_encoding R51). -/
theorem opField_eq {w : Word} {k : Nat} (h : w.toNat / 2 ^ 29 = k) : w.extractLsb' 29 3 = BitVec.ofNat 3 k := by
  refine BitVec.eq_of_toNat_eq ?_
  rw [BitVec.extractLsb'_toNat, Nat.shiftRight_eq_div_pow, h, BitVec.toNat_ofNat]

/-- A field is zero exactly when its part of the word's number is. -/
theorem extractLsb'_eq_zero_iff (w : Word) (lo n : Nat) : w.extractLsb' lo n = 0#n ↔ w.toNat / 2 ^ lo % 2 ^ n = 0 := by
  rw [← BitVec.toNat_inj, BitVec.extractLsb'_toNat, Nat.shiftRight_eq_div_pow, BitVec.toNat_ofNat, Nat.zero_mod]

theorem polynomialField_eq_zero_iff (w : Word) : polynomialField w = 0#8 ↔ w.toNat / 2 ^ 16 % 2 ^ 8 = 0 :=
  extractLsb'_eq_zero_iff w 16 8

theorem payloadField_eq_zero_iff (w : Word) : payloadField w = 0#29 ↔ w.toNat % 2 ^ 29 = 0 := by
  rw [← BitVec.toNat_inj, toNat_payloadField, BitVec.toNat_ofNat, Nat.zero_mod]

/-! ### The decode function, one equation per OP (30_encoding R58) -/

section Rows

variable {w : Word}

theorem decode_op0 (op : w.toNat / 2 ^ 29 = 0) : decode w = .command (.reserved000 (payloadField w)) := by
  simp [decode, opField_eq op]

theorem decode_op1 (op : w.toNat / 2 ^ 29 = 1) :
    decode w = .command
      (.create (reflectField w) (widthField w) (polynomialField w) (highByteField w) (lowByteField w)) := by
  simp [decode, opField_eq op]

theorem decode_op2 (op : w.toNat / 2 ^ 29 = 2) :
    decode w = if w.toNat / 2 ^ 16 % 2 ^ 8 = 0 then
      .command (.createT (reflectField w) (widthField w) (highByteField w) (lowByteField w)) else .illegal .createT := by
  simp only [← polynomialField_eq_zero_iff]
  simp [decode, opField_eq op]

theorem decode_op3 (op : w.toNat / 2 ^ 29 = 3) :
    decode w = if w.toNat / 2 ^ 16 % 2 ^ 13 = 0 then .command (.tload (highByteField w) (lowByteField w))
      else .illegal .tload := by
  simp only [← extractLsb'_eq_zero_iff]
  simp [decode, opField_eq op]

theorem decode_op4 (op : w.toNat / 2 ^ 29 = 4) :
    decode w = if w.toNat / 2 ^ 8 % 2 ^ 21 = 0 then .command (.digest (lowByteField w)) else .illegal .digest := by
  simp only [← extractLsb'_eq_zero_iff]
  simp [decode, opField_eq op]

theorem decode_op5 (op : w.toNat / 2 ^ 29 = 5) :
    decode w = if w.toNat % 2 ^ 29 = 0 then .command .reset else .illegal .reset := by
  simp only [← payloadField_eq_zero_iff]
  simp [decode, opField_eq op]

theorem decode_op6 (op : w.toNat / 2 ^ 29 = 6) :
    decode w = if w.toNat % 2 ^ 29 = 0 then .command .getCrc else .illegal .getCrc := by
  simp only [← payloadField_eq_zero_iff]
  simp [decode, opField_eq op]

theorem decode_op7 (op : w.toNat / 2 ^ 29 = 7) : decode w = .command (.reserved111 (payloadField w)) := by
  simp [decode, opField_eq op]

/-- The eight values of OP. -/
theorem op_cases (w : Word) :
    w.toNat / 2 ^ 29 = 0 ∨ w.toNat / 2 ^ 29 = 1 ∨ w.toNat / 2 ^ 29 = 2 ∨ w.toNat / 2 ^ 29 = 3 ∨ w.toNat / 2 ^ 29 = 4 ∨
      w.toNat / 2 ^ 29 = 5 ∨ w.toNat / 2 ^ 29 = 6 ∨ w.toNat / 2 ^ 29 = 7 := by
  have := w.isLt
  omega

/-! ### A word decodes to a command exactly when it is the command's number -/

/-- A word that decodes to a command is the number of that command: its fields are where the format has them, and every
reserved bit is 0 (30_encoding R58). -/
theorem toNat_of_decode {i : Instr} (h : decode w = .command i) : w.toNat = i.wordNat := by
  have hlt := w.isLt
  obtain op | op | op | op | op | op | op | op := op_cases w
  · rw [decode_op0 op] at h
    cases h
    simp only [Instr.wordNat, toNat_payloadField]
    omega
  · rw [decode_op1 op] at h
    cases h
    simp only [Instr.wordNat, toNat_reflectField, toNat_widthField, toNat_polynomialField, toNat_highByteField,
      toNat_lowByteField]
    omega
  · rw [decode_op2 op] at h
    split at h <;> cases h
    simp only [Instr.wordNat, toNat_reflectField, toNat_widthField, toNat_highByteField, toNat_lowByteField]
    omega
  · rw [decode_op3 op] at h
    split at h <;> cases h
    simp only [Instr.wordNat, toNat_highByteField, toNat_lowByteField]
    omega
  · rw [decode_op4 op] at h
    split at h <;> cases h
    simp only [Instr.wordNat, toNat_lowByteField]
    omega
  · rw [decode_op5 op] at h
    split at h <;> cases h
    simp only [Instr.wordNat]
    omega
  · rw [decode_op6 op] at h
    split at h <;> cases h
    simp only [Instr.wordNat]
    omega
  · rw [decode_op7 op] at h
    cases h
    simp only [Instr.wordNat, toNat_payloadField]
    omega

end Rows

section Digits

variable {w : Word} {r : Bool} {wd : BitVec 4} {p j x k v b : Byte}

/-- The fields of a CREATE word as digits of its number (30_encoding R52, R56). -/
theorem digits_create (h : w.toNat = (Instr.create r wd p j x).wordNat) :
    w.toNat / 2 ^ 29 = 1 ∧ w.toNat / 2 ^ 28 % 2 = r.toNat ∧ w.toNat / 2 ^ 24 % 2 ^ 4 = wd.toNat ∧
      w.toNat / 2 ^ 16 % 2 ^ 8 = p.toNat ∧ w.toNat / 2 ^ 8 % 2 ^ 8 = j.toNat ∧ w.toNat % 2 ^ 8 = x.toNat := by
  simp only [Instr.wordNat] at h
  have := r.toNat_lt
  have := wd.isLt
  have := p.isLt
  have := j.isLt
  have := x.isLt
  omega

/-- The fields of a CREATE_T word as digits of its number, bits [23:16] zero (30_encoding R52, R56). -/
theorem digits_createT (h : w.toNat = (Instr.createT r wd j x).wordNat) :
    w.toNat / 2 ^ 29 = 2 ∧ w.toNat / 2 ^ 28 % 2 = r.toNat ∧ w.toNat / 2 ^ 24 % 2 ^ 4 = wd.toNat ∧
      w.toNat / 2 ^ 16 % 2 ^ 8 = 0 ∧ w.toNat / 2 ^ 8 % 2 ^ 8 = j.toNat ∧ w.toNat % 2 ^ 8 = x.toNat := by
  simp only [Instr.wordNat] at h
  have := r.toNat_lt
  have := wd.isLt
  have := j.isLt
  have := x.isLt
  omega

/-- The fields of a TLOAD word as digits of its number, bits [28:16] zero (30_encoding R53, R56). -/
theorem digits_tload (h : w.toNat = (Instr.tload k v).wordNat) :
    w.toNat / 2 ^ 29 = 3 ∧ w.toNat / 2 ^ 16 % 2 ^ 13 = 0 ∧ w.toNat / 2 ^ 8 % 2 ^ 8 = k.toNat ∧
      w.toNat % 2 ^ 8 = v.toNat := by
  simp only [Instr.wordNat] at h
  have := k.isLt
  have := v.isLt
  omega

/-- The fields of a DIGEST word as digits of its number, bits [28:8] zero (30_encoding R54, R56). -/
theorem digits_digest (h : w.toNat = (Instr.digest b).wordNat) :
    w.toNat / 2 ^ 29 = 4 ∧ w.toNat / 2 ^ 8 % 2 ^ 21 = 0 ∧ w.toNat % 2 ^ 8 = b.toNat := by
  simp only [Instr.wordNat] at h
  have := b.isLt
  omega

end Digits

/-- R as a digit of the word's number. -/
theorem reflectField_eq {w : Word} {r : Bool} (h : w.toNat / 2 ^ 28 % 2 = r.toNat) : reflectField w = r := by
  rw [Bool.eq_iff_iff, ← Bool.toNat_eq_one, ← Bool.toNat_eq_one, toNat_reflectField, h]

/-- A word that is the number of a command decodes to it: no two fields share a digit of the number, and none is
dropped. -/
theorem decode_of_toNat {w : Word} {i : Instr} (h : w.toNat = i.wordNat) : decode w = .command i := by
  cases i with
  | reserved000 payload =>
    simp only [Instr.wordNat] at h
    have := payload.isLt
    rw [decode_op0 (by omega), Decoded.command.injEq, Instr.reserved000.injEq, ← BitVec.toNat_inj, toNat_payloadField]
    omega
  | create r wd p j x =>
    obtain ⟨op, hr, hwd, hp, hj, hx⟩ := digits_create h
    simp only [decode_op1 op, reflectField_eq hr, Decoded.command.injEq, Instr.create.injEq, ← BitVec.toNat_inj,
      toNat_widthField, toNat_polynomialField, toNat_highByteField, toNat_lowByteField, hwd, hp, hj, hx, and_self]
  | createT r wd j x =>
    obtain ⟨op, hr, hwd, hz, hj, hx⟩ := digits_createT h
    simp only [decode_op2 op, hz, if_true, reflectField_eq hr, Decoded.command.injEq, Instr.createT.injEq,
      ← BitVec.toNat_inj, toNat_widthField, toNat_highByteField, toNat_lowByteField, hwd, hj, hx, and_self]
  | tload k v =>
    obtain ⟨op, hz, hk, hv⟩ := digits_tload h
    simp only [decode_op3 op, hz, if_true, Decoded.command.injEq, Instr.tload.injEq, ← BitVec.toNat_inj,
      toNat_highByteField, toNat_lowByteField, hk, hv, and_self]
  | digest b =>
    obtain ⟨op, hz, hb⟩ := digits_digest h
    simp only [decode_op4 op, hz, if_true, Decoded.command.injEq, Instr.digest.injEq, ← BitVec.toNat_inj,
      toNat_lowByteField, hb]
  | reset =>
    simp only [Instr.wordNat] at h
    rw [decode_op5 (by omega), if_pos (by omega)]
  | getCrc =>
    simp only [Instr.wordNat] at h
    rw [decode_op6 (by omega), if_pos (by omega)]
  | reserved111 payload =>
    simp only [Instr.wordNat] at h
    have := payload.isLt
    rw [decode_op7 (by omega), Decoded.command.injEq, Instr.reserved111.injEq, ← BitVec.toNat_inj, toNat_payloadField]
    omega

/-- The decoder and the encoder are inverse to each other on the words of commands. -/
theorem decode_eq_command_iff {w : Word} {i : Instr} : decode w = .command i ↔ encode i = w := by
  rw [← BitVec.toNat_inj, toNat_encode, eq_comm (a := i.wordNat)]
  exact ⟨toNat_of_decode, decode_of_toNat⟩

end Sys2Proof
end

section
/-! PROOFS. The statements on decoding: the operands are the fields (30_encoding R56), the opcode map of match and mask
selects the commands (R57), and illegal words raise (R58). -/

namespace Sys2Proof

open Machine

/-! ### Decoding and encoding -/

/-- Settles O1: the encoder's half of `decode_eq_command_iff`. -/
theorem decodeOfEncodeIsTheCommand : Obligations.DecodeOfEncodeIsTheCommand :=
  fun _ _ => decode_eq_command_iff.2 rfl

/-- Settles O2: the decoder's half of `decode_eq_command_iff`. -/
theorem encodeOfDecodeIsTheWord : Obligations.EncodeOfDecodeIsTheWord :=
  fun _ _ => decode_eq_command_iff.1

/-- Settles O6: ten closed words, each evaluated by the decoder. -/
theorem wordsOfTheSpecDecode : Obligations.WordsOfTheSpecDecode := by
  unfold Obligations.WordsOfTheSpecDecode
  decide

/-- Settles O5: a word that decodes to a command is the command's number, whose digits are the operands; the width is
checked at execution alone. -/
theorem operandsAreTheFieldsOfTheWord : Obligations.OperandsAreTheFieldsOfTheWord := by
  refine fun w => ⟨fun r wd p j x h => ?_, fun r wd j x h => ?_, fun k v h => ?_, fun b h => ?_⟩
  · obtain ⟨-, hr, hwd, hp, hj, hx⟩ := digits_create (toNat_of_decode h)
    refine ⟨by rw [hr, Bool.toNat_eq_one], hwd.symm, hp.symm, hj.symm, hx.symm, fun hill s => ?_⟩
    refine execCreate_illegal r wd p j x s ?_
    rw [← Bool.not_eq_true, widthLegal_iff]
    omega
  · obtain ⟨-, hr, hwd, -, hj, hx⟩ := digits_createT (toNat_of_decode h)
    exact ⟨by rw [hr, Bool.toNat_eq_one], hwd.symm, hj.symm, hx.symm, fun h8 s => execCreateT_width r wd j x s h8⟩
  · obtain ⟨-, -, hk, hv⟩ := digits_tload (toNat_of_decode h)
    exact ⟨hk.symm, hv.symm⟩
  · obtain ⟨-, -, hb⟩ := digits_digest (toNat_of_decode h)
    exact hb.symm

/-! ### The opcode map -/

/-- Where the mask covers a field, a word that matches has the pattern's field. -/
theorem field_of_match {w pattern mask : Word} (h : w &&& mask = pattern) {lo n : Nat}
    (hmask : mask.extractLsb' lo n = BitVec.allOnes n) :
    w.toNat / 2 ^ lo % 2 ^ n = pattern.toNat / 2 ^ lo % 2 ^ n := by
  have hfield : w.extractLsb' lo n = pattern.extractLsb' lo n := by
    rw [← h, BitVec.extractLsb'_and, hmask, BitVec.and_allOnes]
  simpa only [BitVec.extractLsb'_toNat, Nat.shiftRight_eq_div_pow] using congrArg BitVec.toNat hfield

/-- Every mask covers OP, so a word that matches has the pattern's OP. -/
theorem op_of_match {w pattern mask : Word} (h : w &&& mask = pattern)
    (hmask : mask.extractLsb' 29 3 = BitVec.allOnes 3) : w.toNat / 2 ^ 29 = pattern.toNat / 2 ^ 29 := by
  have hfield := field_of_match h hmask
  have := w.isLt
  have := pattern.isLt
  omega

/-- A word that matches a row decodes to a command with the row's mnemonic (30_encoding R57). -/
theorem decode_of_match {row : OpcodeRow} (hrow : row ∈ opcodeMap) {w : Word} (h : w &&& row.mask = row.pattern) :
    ∃ i, decode w = .command i ∧ i.mnemonic = row.mnemonic := by
  simp only [opcodeMap, List.mem_cons, List.not_mem_nil, or_false] at hrow
  obtain rfl | rfl | rfl | rfl | rfl | rfl | rfl | rfl := hrow
  · exact ⟨_, decode_op0 (op_of_match h (by decide)), rfl⟩
  · exact ⟨_, decode_op1 (op_of_match h (by decide)), rfl⟩
  · have hz := field_of_match h (lo := 16) (n := 8) (by decide)
    exact ⟨_, (decode_op2 (op_of_match h (by decide))).trans (if_pos hz), rfl⟩
  · have hz := field_of_match h (lo := 16) (n := 13) (by decide)
    exact ⟨_, (decode_op3 (op_of_match h (by decide))).trans (if_pos hz), rfl⟩
  · have hz := field_of_match h (lo := 8) (n := 21) (by decide)
    exact ⟨_, (decode_op4 (op_of_match h (by decide))).trans (if_pos hz), rfl⟩
  · have hz := field_of_match h (lo := 0) (n := 29) (by decide)
    rw [Nat.pow_zero, Nat.div_one] at hz
    exact ⟨_, (decode_op5 (op_of_match h (by decide))).trans (if_pos hz), rfl⟩
  · have hz := field_of_match h (lo := 0) (n := 29) (by decide)
    rw [Nat.pow_zero, Nat.div_one] at hz
    exact ⟨_, (decode_op6 (op_of_match h (by decide))).trans (if_pos hz), rfl⟩
  · exact ⟨_, decode_op7 (op_of_match h (by decide)), rfl⟩

/-- Every command's word matches the row of its mnemonic: the laws per command, gathered. -/
theorem encode_matches (i : Instr) : Laws.EncodesInRow.Statement i := by
  cases i with
  | reserved000 payload => exact Laws.EncodesInRow.reserved000 payload
  | create r wd p j x => exact Laws.EncodesInRow.create r wd p j x
  | createT r wd j x => exact Laws.EncodesInRow.createT r wd j x
  | tload k v => exact Laws.EncodesInRow.tload k v
  | digest b => exact Laws.EncodesInRow.digest b
  | reset => exact Laws.EncodesInRow.reset
  | getCrc => exact Laws.EncodesInRow.getCrc
  | reserved111 payload => exact Laws.EncodesInRow.reserved111 payload

/-- The opcode map has one row for each mnemonic. -/
theorem opcodeRow_unique : ∀ row ∈ opcodeMap, ∀ row' ∈ opcodeMap, row.mnemonic = row'.mnemonic → row = row' := by
  decide

/-- A row selects exactly the words of the commands that it names (30_encoding R57). -/
theorem match_iff {row : OpcodeRow} (hrow : row ∈ opcodeMap) (w : Word) :
    w &&& row.mask = row.pattern ↔ ∃ i, decode w = .command i ∧ i.mnemonic = row.mnemonic := by
  refine ⟨decode_of_match hrow, fun ⟨i, hi, hname⟩ => ?_⟩
  obtain ⟨row', hrow', hname', hmatch⟩ := encode_matches i
  obtain rfl := opcodeRow_unique row' hrow' row hrow (hname'.trans hname)
  rwa [← decode_eq_command_iff.1 hi]

/-- Settles O3: the eight rows of the statement are those of the opcode map. -/
theorem matchAndMaskSelectTheCommand : Obligations.MatchAndMaskSelectTheCommand := by
  intro name pattern mask hmem w
  have hmap : (name, pattern, mask) ∈ opcodeMap.map fun row => (row.mnemonic, row.pattern, row.mask) := hmem
  obtain ⟨row, hrow, heq⟩ := List.mem_map.1 hmap
  cases heq
  exact match_iff hrow w

/-! ### Illegal words -/

/-- Settles O27: each of the two is `raise` by its definition. -/
theorem reservedOpcodesRaiseIllegalCommand : Obligations.ReservedOpcodesRaiseIllegalCommand :=
  fun _ s => ⟨raise_eq .illegalCommand s, raise_eq .illegalCommand s⟩

/-- Settles O4: each clause is the decoder's equation for its OP, and a word that names no command raises. -/
theorem decodingIsTotalAndIllegalWordsRaise : Obligations.DecodingIsTotalAndIllegalWordsRaise := by
  intro w s ms hplan hresp
  simp only [BitVec.ofNat_eq_ofNat, ne_eq, extractLsb'_eq_zero_iff, Nat.pow_zero, Nat.div_one]
  refine ⟨fun op => ⟨_, _, _, _, _, decode_op1 op⟩,
    fun op hz => ⟨_, _, _, _, (decode_op2 op).trans (if_pos hz)⟩,
    fun op hz => ⟨_, _, (decode_op3 op).trans (if_pos hz)⟩,
    fun op hz => ⟨_, (decode_op4 op).trans (if_pos hz)⟩,
    fun op hz => (decode_op5 op).trans (if_pos hz),
    fun op hz => (decode_op6 op).trans (if_pos hz), fun hill => ?_⟩
  rw [step_issue hplan hresp]
  obtain op | op | ⟨op, hnz⟩ | ⟨op, hnz⟩ | ⟨op, hnz⟩ | ⟨op | op, hnz⟩ := hill
  · exact (executeWord_command (decode_op0 op) _).trans (raise_eq .illegalCommand _)
  · exact (executeWord_command (decode_op7 op) _).trans (raise_eq .illegalCommand _)
  · exact executeWord_illegal ((decode_op2 op).trans (if_neg hnz)) _
  · exact executeWord_illegal ((decode_op3 op).trans (if_neg hnz)) _
  · exact executeWord_illegal ((decode_op4 op).trans (if_neg hnz)) _
  · exact executeWord_illegal ((decode_op5 op).trans (if_neg hnz)) _
  · exact executeWord_illegal ((decode_op6 op).trans (if_neg hnz)) _

end Sys2Proof
end

section
/-! PROOFS. The assembler (30_encoding R60, R61): a line assembles to its words exactly when its operands fit, and the
pseudo-instructions to the words of the lines that they stand for. -/

namespace Sys2Proof

/-! ### One line -/

/-- A line whose operands fit exactly under `P` assembles to its words under `P` and to nothing otherwise. -/
theorem AsmLine.assemble_eq_ite {l : AsmLine} {ws : List Word} {P : Prop} [Decidable P] (hfit : l.wellFormed = true ↔ P)
    (hwords : P → l.words = ws) : l.assemble = if P then some ws else none := by
  by_cases h : P
  · rw [assemble, if_pos (hfit.2 h), if_pos h, hwords h]
  · rw [assemble, if_neg (mt hfit.1 h), if_neg h]

/-- A line that stands for one command assembles to the command's number when its operands fit. -/
theorem AsmLine.assemble_command {l : AsmLine} {i : Instr} {n : Nat} {P : Prop} [Decidable P]
    (hwords : l.words = [encode i]) (hfit : l.wellFormed = true ↔ P) (hn : P → i.wordNat = n) :
    l.assemble = if P then some [BitVec.ofNat 32 n] else none := by
  refine assemble_eq_ite hfit fun h => ?_
  rw [hwords, ← hn h, ← toNat_encode, BitVec.ofNat_toNat, BitVec.setWidth_eq]

/-- The operand `refl`, where it fits its field, as the digit of R. -/
theorem toNat_beq_one {r : Nat} (h : r < 2) : (r == 1).toNat = r := by
  interval_cases r <;> rfl

/-- Settles O7: a command's line assembles to the command's number, and the field of an operand that fits is the
operand. -/
theorem assemblerLinesEncode : Obligations.AssemblerLinesEncode := by
  refine ⟨fun wd p i x r => ?_, fun wd i x r => ?_, fun k v => ?_, fun b => ?_, rfl, rfl, fun v => ?_⟩
  · refine AsmLine.assemble_command rfl (by simp [AsmLine.wellFormed, fits, and_assoc]) fun ⟨hwd, hp, hi, hx, hr⟩ => ?_
    simp only [Instr.wordNat, BitVec.toNat_ofNat, toNat_beq_one hr]
    omega
  · refine AsmLine.assemble_command rfl (by simp [AsmLine.wellFormed, fits, and_assoc]) fun ⟨hwd, hi, hx, hr⟩ => ?_
    simp only [Instr.wordNat, BitVec.toNat_ofNat, toNat_beq_one hr]
    omega
  · refine AsmLine.assemble_command rfl (by simp [AsmLine.wellFormed, fits]) fun ⟨hk, hv⟩ => ?_
    simp only [Instr.wordNat, BitVec.toNat_ofNat]
    omega
  · refine AsmLine.assemble_command rfl (by simp [AsmLine.wellFormed, fits]) fun hb => ?_
    simp only [Instr.wordNat, BitVec.toNat_ofNat]
    omega
  · exact AsmLine.assemble_eq_ite (by simp [AsmLine.wellFormed, fits]) fun _ => rfl

/-- Settles O8: six closed lines, read and assembled. -/
theorem linesOfTheSpecAssemble : Obligations.LinesOfTheSpecAssemble := by
  refine ⟨?_, ?_, ?_, ?_, ?_, ?_⟩ <;> decide

/-! ### The pseudo-instructions -/

/-- Lines that each assemble to one word, or to none where an operand does not fit, assemble together to these words, or
to none where one of them does. -/
theorem mapM_assemble_flatten {α : Type} {line : α → AsmLine} {word : α → Word}
    (hword : ∀ a, (line a).words = [word a]) (as : List α) :
    (as.mapM fun a => (line a).assemble).map List.flatten =
      if as.all (fun a => (line a).wellFormed) then some (as.map word) else none := by
  induction as with
  | nil => rfl
  | cons a as ih =>
    have hcons : ((a :: as).mapM fun a => (line a).assemble).map List.flatten =
        (line a).assemble.bind fun ws =>
          ((as.mapM fun a => (line a).assemble).map List.flatten).map fun vs => ws ++ vs := by
      cases h : (line a).assemble <;> cases h' : as.mapM fun a => (line a).assemble <;> simp [List.mapM_cons, h, h']
    rw [hcons, ih, AsmLine.assemble, hword]
    cases ha : (line a).wellFormed <;> cases hall : as.all (fun a => (line a).wellFormed) <;> simp [ha, hall]

/-- TLOADALL's words from entry `k` on: the entries with their indices. -/
theorem tloadWordsFrom_eq_map (k : Nat) (ts : List Nat) :
    tloadWordsFrom k ts =
      ((List.range' k ts.length).zip ts).map fun e => encode (.tload (BitVec.ofNat 8 e.1) (BitVec.ofNat 8 e.2)) := by
  induction ts generalizing k with
  | nil => rfl
  | cons t ts ih => simp [tloadWordsFrom, List.range'_succ, ih]

/-- One word for each entry. -/
@[simp] theorem length_tloadWordsFrom (k : Nat) (ts : List Nat) : (tloadWordsFrom k ts).length = ts.length := by
  simp [tloadWordsFrom_eq_map]

/-- Indices that fit leave the check to the entries. -/
theorem all_tload_wellFormed {k : Nat} {ts : List Nat} (h : k + ts.length ≤ 256) :
    ((List.range' k ts.length).zip ts).all (fun e => (AsmLine.tload e.1 e.2).wellFormed) = ts.all (fits 8) := by
  induction ts generalizing k with
  | nil => rfl
  | cons t ts ih =>
    rw [List.length_cons] at h
    have hk : fits 8 k = true := decide_eq_true (by omega)
    have ih := ih (k := k + 1) (by omega)
    simp only [AsmLine.wellFormed] at ih ⊢
    simp [List.range'_succ, hk, ih]

/-- `DIGESTS` of numbers is its DIGESTs. -/
theorem assemble_digests (bs : List Nat) :
    (AsmLine.digests bs).assemble = (bs.mapM fun b => (AsmLine.digest b).assemble).map List.flatten :=
  (mapM_assemble_flatten (line := .digest) (fun _ => rfl) bs).symm

/-- `DIGESTS` of an ASCII text is that of its bytes: both fit, and the words are the same. -/
theorem assemble_digestsText {cs : List Char} (hcs : ∀ c ∈ cs, c.toNat < 128) :
    (AsmLine.digestsText cs).assemble = (AsmLine.digests (cs.map Char.toNat)).assemble := by
  have htext : (AsmLine.digestsText cs).wellFormed = true :=
    List.all_eq_true.2 fun c hc => decide_eq_true (hcs c hc)
  have hbytes : (AsmLine.digests (cs.map Char.toNat)).wellFormed = true := by
    refine List.all_eq_true.2 fun n hn => ?_
    obtain ⟨c, hc, rfl⟩ := List.mem_map.1 hn
    exact decide_eq_true ((hcs c hc).trans (by decide))
  rw [AsmLine.assemble, AsmLine.assemble, if_pos htext, if_pos hbytes]
  rfl

/-- `TLOADALL` of 256 entries is its TLOADs, of indices 0 to 255. -/
theorem assemble_tloadAll {ts : List Nat} (hlen : ts.length = 256) :
    (AsmLine.tloadAll ts).assemble =
      (((List.range 256).zip ts).mapM fun e => (AsmLine.tload e.1 e.2).assemble).map List.flatten := by
  rw [mapM_assemble_flatten (line := fun e : Nat × Nat => .tload e.1 e.2) (fun _ => rfl), List.range_eq_range', ← hlen,
    all_tload_wellFormed (by omega), ← tloadWordsFrom_eq_map]
  simp [AsmLine.assemble, AsmLine.wellFormed, AsmLine.words, hlen]

/-- `TLOADALL` assembles to 256 words or to none. -/
theorem length_of_assemble_tloadAll {ts : List Nat} {ws : List Word} (h : (AsmLine.tloadAll ts).assemble = some ws) :
    ws.length = 256 := by
  rw [AsmLine.assemble] at h
  split at h <;> cases h
  next hfit =>
    simp only [AsmLine.wellFormed, Bool.and_eq_true, beq_iff_eq] at hfit
    obtain ⟨hlen, -⟩ := hfit
    simpa only [AsmLine.words, length_tloadWordsFrom] using hlen

/-- `CREATE_WITH_TABLE` is `TLOADALL` followed by `CREATE_T`: it fits when both do, and its words are theirs. -/
theorem assemble_createWithTable (ts : List Nat) (wd i x r : Nat) :
    (AsmLine.createWithTable ts wd i x r).assemble =
      (AsmLine.tloadAll ts).assemble.bind fun ws => (AsmLine.createT wd i x r).assemble.map fun vs => ws ++ vs := by
  have hfit : (AsmLine.createWithTable ts wd i x r).wellFormed =
      ((AsmLine.tloadAll ts).wellFormed && (AsmLine.createT wd i x r).wellFormed) := by
    simp [AsmLine.wellFormed, Bool.and_assoc]
  simp only [AsmLine.assemble, hfit]
  cases (AsmLine.tloadAll ts).wellFormed <;> cases (AsmLine.createT wd i x r).wellFormed <;> simp [AsmLine.words]

/-- Settles O9: each expansion by its own lemma. -/
theorem pseudoInstructionsExpand : Obligations.PseudoInstructionsExpand :=
  ⟨assemble_digests, rfl, fun _ => assemble_digestsText, fun _ => assemble_tloadAll,
    fun _ _ => length_of_assemble_tloadAll, assemble_createWithTable⟩

end Sys2Proof
end

section
/-! PROOFS. The response of a command word (30_encoding R59). -/

namespace Sys2Proof.Machine

/-- The readout is masked on every path, so it is at most MASK (42_digest_engine R88). -/
theorem checksum_toNat_le_mask (s : State) : s.checksum.toNat ≤ s.mask.toNat := by
  unfold State.checksum
  split <;> exact Nat.and_le_right

/-- The checksum of a built engine has no bit at or above WIDTH (42_digest_engine R88). -/
theorem checksum_lt_two_pow {s : State} (hc : s.Consistent) (hs : s.cfgValid = true) :
    s.checksum.toNat < 2 ^ s.width.toNat := by
  obtain ⟨-, -, -, hmask, -⟩ := hc hs
  calc s.checksum.toNat ≤ s.mask.toNat := checksum_toNat_le_mask s
    _ = (2 ^ s.width.toNat - 1) % 2 ^ 8 := by rw [hmask, BitVec.toNat_ofNat]
    _ ≤ 2 ^ s.width.toNat - 1 := Nat.mod_le ..
    _ < 2 ^ s.width.toNat := Nat.sub_one_lt (Nat.two_pow_pos _).ne'

/-- What a command answers: 0 where it is no GET_CRC, an error, or the checksum of the engine. -/
theorem Completes.response_cases {i : Instr} {s t : State} (h : Completes i s t) :
    (i ≠ .getCrc ∧ t.response = some 0) ∨ (∃ e, t.response = some (errorWord e)) ∨
      (i = .getCrc ∧ s.cfgValid = true ∧ t.response = some (successWord s.checksum)) := by
  cases h with
  | error e => exact .inr (.inl ⟨e, rfl⟩)
  | getCrc configured => exact .inr (.inr ⟨rfl, configured, rfl⟩)
  | createTable | createBitwise | createT | tload | digest | reset => exact .inl ⟨nofun, rfl⟩

/-- An error word in the shape of R59, its code between 1 and 4. -/
theorem errorWord_eq_code (e : ErrorCause) :
    ∃ code, 1 ≤ code ∧ code ≤ 4 ∧ errorWord e = 0x80000000 ||| (BitVec.ofNat 32 code <<< 8) :=
  ⟨(errorCode e).toNat, by cases e <;> decide⟩

/-- Settles O13: a word is a command, which answers in one of the three ways, or is illegal and answers its error. -/
theorem everyWordGetsOneFormedResponse : Obligations.EveryWordGetsOneFormedResponse := by
  intro s w ms hplan hresp hc
  obtain ⟨u, r, hnext, hplan', hobs⟩ := executeWord_presents w (s.planned ms)
  refine ⟨u.present r, r, (step_issue hplan hresp).trans hnext, rfl, hobs, hplan', ?_⟩
  obtain ⟨i, hi, hcomp⟩ | hill := executeWord_completes hnext
  · obtain ⟨hne, h0⟩ | ⟨e, he⟩ | ⟨rfl, hcfg, hsum⟩ := hcomp.response_cases
    · exact .inl ⟨by simpa [hi] using hne, Option.some.inj h0⟩
    · obtain rfl := Option.some.inj he
      exact .inr (.inl (errorWord_eq_code e))
    · obtain rfl := Option.some.inj hsum
      refine .inr (.inr ⟨hi, rfl, ?_⟩)
      rw [successWord, BitVec.zeroExtend, BitVec.toNat_setWidth_of_le (by decide)]
      exact checksum_lt_two_pow (s := s) hc hcfg
  · obtain rfl := Option.some.inj (congrArg State.response hill)
    exact .inr (.inl (errorWord_eq_code .illegalCommand))

end Sys2Proof.Machine
end

section
/-! PROOFS. The Parameter Normalizer: reflection as a mirror of the low bits (40_normalizer R62, R64), HIGH_BIT and MASK
(R66), and the three construction commands by their equations (R71, R72, R73). -/

namespace Sys2Proof.Machine

/-! ### Reflection, bit by bit -/

@[simp] theorem reflectLoop_zero (n : Byte) (rounds : Nat) (j out : Byte) : reflectLoop n rounds 0 j out = out := by
  cases rounds <;> rfl

/-- One round of the while loop, taken while `i` is not 0 (40_normalizer R62). -/
theorem reflectLoop_succ_of_ne {i : Byte} (hi : i ≠ 0) (n : Byte) (rounds : Nat) (j out : Byte) :
    reflectLoop n (rounds + 1) i j out =
      reflectLoop n rounds (i >>> 1) (j <<< 1) (if n &&& i ≠ 0 then out ||| j else out) :=
  if_neg hi

theorem twoPow_ne_zero {a : Nat} (ha : a < 8) : BitVec.twoPow 8 a ≠ 0#8 := by
  intro h
  simpa [ha] using congrArg (·.getLsbD a) h

theorem twoPow_succ_ushiftRight {a : Nat} (ha : a + 1 < 8) : BitVec.twoPow 8 (a + 1) >>> 1 = BitVec.twoPow 8 a := by
  refine BitVec.eq_of_getLsbD_eq fun k hk => ?_
  have hbit : a + 1 = 1 + k ↔ a = k := by omega
  simp [BitVec.getLsbD_twoPow, hbit, ha, Nat.lt_of_succ_lt ha]

theorem twoPow_shiftLeft_one (m : Nat) : BitVec.twoPow 8 m <<< 1 = BitVec.twoPow 8 (m + 1) := by
  rw [BitVec.twoPow_eq, BitVec.twoPow_eq, BitVec.shiftLeft_add]

/-- One round copies bit `a` of `n` to bit `m` of the result. -/
theorem getLsbD_reflect_round (n out : Byte) {a m : Nat} (ha : a < 8) (hm : m < 8) (k : Nat) :
    (if n &&& BitVec.twoPow 8 a ≠ 0 then out ||| BitVec.twoPow 8 m else out).getLsbD k =
      (out.getLsbD k || (decide (m = k) && n.getLsbD a)) := by
  rw [BitVec.and_twoPow]
  cases n.getLsbD a with
  | false => simp
  | true => simp [twoPow_ne_zero ha, BitVec.getLsbD_twoPow, hm]

/-- From the one-hot `i = 2^a` and `j = 2^m` on, the loop mirrors bits `a` to 0 of `n` into bits `m` to `m + a` of the
result (40_normalizer R62). -/
theorem getLsbD_reflectLoop (n : Byte) (k : Nat) {a : Nat} :
    ∀ {rounds m : Nat} (out : Byte), a < rounds → m + a < 8 →
      (reflectLoop n rounds (BitVec.twoPow 8 a) (BitVec.twoPow 8 m) out).getLsbD k =
        (out.getLsbD k || (decide (m ≤ k ∧ k ≤ m + a) && n.getLsbD (m + a - k))) := by
  induction a with
  | zero =>
    intro rounds m out hr hm
    obtain ⟨rounds, rfl⟩ := Nat.exists_eq_add_of_lt hr
    have hstop : BitVec.twoPow 8 0 >>> 1 = 0 := by decide
    rw [reflectLoop_succ_of_ne (twoPow_ne_zero (by omega)), hstop, reflectLoop_zero,
      getLsbD_reflect_round n out (by omega) (by omega)]
    by_cases hk : m = k
    · simp [hk]
    · have houtside : ¬ (m ≤ k ∧ k ≤ m + 0) := by omega
      simp only [hk, houtside, decide_false, Bool.false_and]
  | succ a ih =>
    intro rounds m out hr hm
    obtain ⟨rounds, rfl⟩ := Nat.exists_eq_add_of_lt hr
    rw [reflectLoop_succ_of_ne (twoPow_ne_zero (by omega)), twoPow_succ_ushiftRight (by omega), twoPow_shiftLeft_one,
      ih _ (by omega) (by omega), getLsbD_reflect_round n out (by omega) (by omega)]
    by_cases hk : m = k
    · simp [hk]
    · have hsum : m + 1 + a = m + (a + 1) := by omega
      have hrest : m + 1 ≤ k ∧ k ≤ m + (a + 1) ↔ m ≤ k ∧ k ≤ m + (a + 1) := by omega
      simp only [hk, hsum, hrest, decide_false, Bool.false_and, Bool.or_false]

/-- Bit `k` of a reflection at high bit `a` is bit `a - k` of `n`, and 0 above `a` (40_normalizer R62). -/
theorem getLsbD_reflectBits {a : Nat} (ha : a < 8) (n : Byte) (k : Nat) :
    (reflectBits (BitVec.twoPow 8 a) n).getLsbD k = (decide (k ≤ a) && n.getLsbD (a - k)) := by
  have hloop := getLsbD_reflectLoop n k (rounds := 8) (m := 0) 0 ha (by omega)
  rw [Nat.zero_add, BitVec.twoPow_zero] at hloop
  simpa [reflectBits] using hloop

/-- Reflecting twice at high bit `a` clears the bits above `a` and keeps the others (40_normalizer R64). -/
theorem reflectBits_reflectBits {a : Nat} (ha : a < 8) (n : Byte) :
    reflectBits (BitVec.twoPow 8 a) (reflectBits (BitVec.twoPow 8 a) n) = n &&& BitVec.ofNat 8 (2 ^ (a + 1) - 1) := by
  refine BitVec.eq_of_getLsbD_eq fun k hk => ?_
  rw [getLsbD_reflectBits ha, getLsbD_reflectBits ha, BitVec.getLsbD_and, BitVec.getLsbD_ofNat,
    Nat.testBit_two_pow_sub_one]
  by_cases hka : k ≤ a
  · have hback : a - (a - k) = k := by omega
    simp [hback, hka, hk, Nat.lt_succ_of_le hka]
  · simp [hka, Nat.lt_succ_iff]

/-- A byte below `2 ^ w` is its own low `w` bits. -/
theorem and_ofNat_two_pow_sub_one_of_lt {w : Nat} (hw : w ≤ 8) {n : Byte} (hn : n.toNat < 2 ^ w) :
    n &&& BitVec.ofNat 8 (2 ^ w - 1) = n := by
  have hle : 2 ^ w ≤ 2 ^ 8 := Nat.pow_le_pow_right (by omega) hw
  refine BitVec.eq_of_toNat_eq ?_
  rw [BitVec.toNat_and, BitVec.toNat_ofNat, Nat.mod_eq_of_lt (by omega), Nat.and_two_pow_sub_one_of_lt_two_pow hn]

/-- `1 << a` as a number is the one-hot byte. -/
theorem ofNat_two_pow_eq_twoPow (a : Nat) : BitVec.ofNat 8 (2 ^ a) = BitVec.twoPow 8 a :=
  BitVec.eq_of_toNat_eq (by rw [BitVec.toNat_ofNat, BitVec.toNat_twoPow])

/-- Settles O37: the mirror at high bit `w - 1`, where `k ≤ w - 1` is `k < w`. -/
theorem reflectBitsMirrorsTheLowBits : Obligations.ReflectBitsMirrorsTheLowBits := by
  intro w n k h1 h8 _
  rw [ofNat_two_pow_eq_twoPow, getLsbD_reflectBits (by omega)]
  by_cases hkw : k < w
  · simp [hkw, Nat.le_sub_one_of_lt hkw]
  · have hgt : ¬ k ≤ w - 1 := by omega
    simp [hkw, hgt]

/-- Settles O38: reflecting twice masks with the low `w` bits, and a number below `2 ^ w` keeps all its bits there. -/
theorem reflectionIsAnInvolution : Obligations.ReflectionIsAnInvolution := by
  intro w n h1 h8 h
  obtain ⟨a, rfl⟩ := Nat.exists_eq_add_of_le' h1
  have htwice : reflectBits h (reflectBits h n) = n &&& BitVec.ofNat 8 (2 ^ (a + 1) - 1) := by
    rw [show h = BitVec.twoPow 8 a from ofNat_two_pow_eq_twoPow a, reflectBits_reflectBits (by omega)]
  rw [Nat.add_sub_cancel, ← pow_succ']
  exact ⟨fun hn => htwice.trans (and_ofNat_two_pow_sub_one_of_lt h8 hn), htwice⟩

/-! ### HIGH_BIT and MASK -/

/-- Settles O39: both are the bytes of their numbers, which are below 256; the or with 1 adds 1 to an even number. -/
theorem highBitAndMaskOfEveryWidth : Obligations.HighBitAndMaskOfEveryWidth := by
  intro wd h1 h8
  have legal := (widthLegal_iff wd).2 ⟨h1, h8⟩
  have htwo : 2 ^ (wd.toNat - 1) * 2 = 2 ^ wd.toNat := Nat.two_pow_pred_mul_two h1
  have hle : 2 ^ wd.toNat ≤ 2 ^ 8 := Nat.pow_le_pow_right (by omega) h8
  have hpos : 0 < 2 ^ (wd.toNat - 1) := Nat.two_pow_pos _
  have hmask : (maskOf (highBitOf wd)).toNat = 2 ^ wd.toNat - 1 := by
    rw [maskOf_highBitOf_eq legal, BitVec.toNat_ofNat, Nat.mod_eq_of_lt (by omega)]
  have hor : (2 ^ (wd.toNat - 1) - 1) * 2 ||| 1 = (2 ^ (wd.toNat - 1) - 1) * 2 + 1 := by
    simpa [Nat.mul_comm] using (Nat.two_pow_add_eq_or_of_lt (i := 1) Nat.one_lt_two (2 ^ (wd.toNat - 1) - 1)).symm
  refine ⟨?_, ?_, hmask⟩
  · rw [highBitOf_eq legal, BitVec.toNat_ofNat, Nat.mod_eq_of_lt (by omega)]
  · rw [hmask, hor]
    omega

/-! ### The construction commands -/

/-- Settles O18: CREATE is its equation for an illegal width, for width 8 and for a width below, whose fields are read
off; HIGH_BIT and MASK are those of the width. -/
theorem createBuildsTheEngine : Obligations.CreateBuildsTheEngine := by
  refine fun r wd p i x s => ⟨fun hill => ?_, fun h1 h8 => ?_, fun w op => ⟨_, _, _, _, _, decode_op1 op⟩⟩
  · refine execCreate_illegal r wd p i x s ?_
    rw [← Bool.not_eq_true, widthLegal_iff]
    omega
  · have legal := (widthLegal_iff wd).2 ⟨h1, h8⟩
    by_cases heq : wd.toNat = 8
    · obtain rfl : wd = 8 := BitVec.eq_of_toNat_eq heq
      exact ⟨_, execCreate_table r p i x s, rfl, rfl, rfl, rfl, rfl, highBitOf_eq legal, maskOf_highBitOf_eq legal, rfl,
        ⟨rfl, rfl, rfl⟩, rfl, rfl, rfl, rfl, rfl⟩
    · refine ⟨_, execCreate_bitwise r wd p i x s legal heq, rfl, rfl, rfl, rfl, rfl, highBitOf_eq legal,
        maskOf_highBitOf_eq legal, rfl, ?_, rfl, rfl, rfl, rfl, rfl⟩
      rw [if_neg heq]
      exact ⟨rfl, rfl, rfl⟩

/-- Settles O19: the equations of CREATE_T in the order of its checks, and the decoder's equation for OP 2. -/
theorem createTCopiesTheStagedTable : Obligations.CreateTCopiesTheStagedTable := by
  refine ⟨fun r wd i x s => ⟨fun h8 => execCreateT_width r wd i x s h8, fun h8 hmissing => ?_, fun h8 hloaded => ?_⟩,
    fun w s op hnz => executeWord_illegal ((decode_op2 op).trans (if_neg hnz)) s⟩
  all_goals obtain rfl : wd = 8 := BitVec.eq_of_toNat_eq h8
  · exact execCreateT_incomplete r i x s ((stageComplete_eq_false_iff s).2 hmissing)
  · exact execCreateT_complete r i x s ((stageComplete_iff s).2 hloaded)

/-- Settles O20: TLOAD is one `stageWrite`, read back by the laws of the arrays, and the decoder's equation for OP 3. -/
theorem tloadWritesOneStagedEntry : Obligations.TloadWritesOneStagedEntry :=
  ⟨fun k v s => ⟨_, execTload_eq k v s, entry_setEntry_same .., entry_setEntry_same ..,
      fun j hj => ⟨entry_setEntry_other _ k j _ hj, entry_setEntry_other _ k j _ hj⟩, rfl⟩,
    fun _ s op hnz => executeWord_illegal ((decode_op3 op).trans (if_neg hnz)) s⟩

end Sys2Proof.Machine
end

section
/-! PROOFS. Runs of TLOAD, entry by entry (20_memory R36, 40_normalizer R73), and a staged table as the engine's table
(41_table_synthesizer R77, 40_normalizer R72). -/

namespace Sys2Proof.Machine

/-! ### A run of TLOADs -/

/-- The state that TLOADs of these pairs of index and value leave, in their order (40_normalizer R73). -/
def State.stageAll (loads : List (Byte × Byte)) (s : State) : State :=
  loads.foldl (fun u e => (u.stageWrite e.1 e.2).present 0) s

@[simp] theorem State.stageAll_nil (s : State) : s.stageAll [] = s := rfl

@[simp] theorem State.stageAll_cons (e : Byte × Byte) (loads : List (Byte × Byte)) (s : State) :
    s.stageAll (e :: loads) = ((s.stageWrite e.1 e.2).present 0).stageAll loads := rfl

@[simp] theorem executeAll_nil (s : State) : executeAll [] s = .next s := rfl

/-- A command that has a next state is followed there by the rest. -/
theorem executeAll_cons {i : Instr} {s t : State} (h : exec i s = .next t) (is : List Instr) :
    executeAll (i :: is) s = executeAll is t := by
  simp only [executeAll, h]

/-- No TLOAD of a run fails, so the commands after it start where the run ends. -/
theorem executeAll_tloads_append (loads : List (Byte × Byte)) (is : List Instr) :
    ∀ s : State, executeAll (loads.map (fun e => .tload e.1 e.2) ++ is) s = executeAll is (s.stageAll loads) := by
  induction loads with
  | nil => exact fun _ => rfl
  | cons e loads ih => exact fun s => (executeAll_cons (i := .tload e.1 e.2) (execTload_eq e.1 e.2 s) _).trans (ih _)

/-- After a run of TLOADs an entry counts as loaded when it did before or some load is of its index (20_memory R36). -/
theorem entry_stageLoaded_stageAll (loads : List (Byte × Byte)) (k : Byte) :
    ∀ s : State, entry (s.stageAll loads).stageLoaded k = true ↔
      entry s.stageLoaded k = true ∨ ∃ v, (k, v) ∈ loads := by
  induction loads with
  | nil => simp
  | cons e loads ih =>
    obtain ⟨j, v⟩ := e
    intro s
    rw [State.stageAll_cons, ih]
    by_cases hk : k = j
    · subst hk
      simp
    · simp [hk, entry_setEntry_other]

/-- After a run of TLOADs whose loads of index `k` all have the value `w`, entry `k` is `w` when there is such a load or the
entry was `w` before (40_normalizer R73). -/
theorem entry_stage_stageAll {loads : List (Byte × Byte)} {k w : Byte} :
    ∀ {s : State}, (∀ v, (k, v) ∈ loads → v = w) → ((∃ v, (k, v) ∈ loads) ∨ entry s.stage k = w) →
      entry (s.stageAll loads).stage k = w := by
  induction loads with
  | nil => simp
  | cons e loads ih =>
    obtain ⟨j, v⟩ := e
    intro s hall hk
    refine ih (fun v' hv' => hall v' (List.mem_cons_of_mem _ hv')) ?_
    by_cases hkj : k = j
    · subst hkj
      right
      simpa using hall v List.mem_cons_self
    · simpa [hkj, entry_setEntry_other] using hk

/-! ### TLOADALL -/

/-- The loads of TLOADALL (30_encoding R61). -/
def tableLoads (table : Indexed Byte) : List (Byte × Byte) :=
  (List.range 256).map fun k => (BitVec.ofNat 8 k, entry table (BitVec.ofNat 8 k))

theorem tloadAll_eq_map_tableLoads (table : Indexed Byte) :
    tloadAll table = (tableLoads table).map fun e => .tload e.1 e.2 := by
  rw [tableLoads, List.map_map]
  rfl

/-- TLOADALL loads every index once, with the table's entry. -/
theorem mem_tableLoads_iff {table : Indexed Byte} {k v : Byte} : (k, v) ∈ tableLoads table ↔ v = entry table k := by
  simp only [tableLoads, List.mem_map, List.mem_range, Prod.mk.injEq]
  constructor
  · rintro ⟨j, -, rfl, rfl⟩
    rfl
  · rintro rfl
    have hback : BitVec.ofNat 8 k.toNat = k := by simp
    exact ⟨k.toNat, k.isLt, hback, congrArg (entry table) hback⟩

/-- After TLOADALL the staged table is the table loaded, from any state. -/
theorem stage_stageAll_tableLoads (table : Indexed Byte) (s : State) : (s.stageAll (tableLoads table)).stage = table :=
  indexed_ext fun _ =>
    entry_stage_stageAll (fun _ hv => mem_tableLoads_iff.1 hv) (.inl ⟨_, mem_tableLoads_iff.2 rfl⟩)

/-- After TLOADALL the staged table is complete, from any state (40_normalizer R72). -/
theorem stageComplete_stageAll_tableLoads (table : Indexed Byte) (s : State) :
    (s.stageAll (tableLoads table)).stageComplete = true :=
  (stageComplete_iff _).2 fun k =>
    (entry_stageLoaded_stageAll (tableLoads table) k s).2 (.inr ⟨_, mem_tableLoads_iff.2 rfl⟩)

/-- TLOADALL of a table and then CREATE_T builds the engine of that table, from any state (40_normalizer R72). -/
theorem executeAll_tloadAll_createT (table : Indexed Byte) (r : Bool) (i x : Byte) (s : State) :
    ∃ u : State, executeAll (tloadAll table ++ [.createT r 8 i x]) s =
      .next ((((u.normalize r 8 i x).installTable table).configure).present 0) := by
  have hcreate := execCreateT_complete r i x _ (stageComplete_stageAll_tableLoads table s)
  rw [stage_stageAll_tableLoads] at hcreate
  refine ⟨s.stageAll (tableLoads table), ?_⟩
  rw [tloadAll_eq_map_tableLoads, executeAll_tloads_append, executeAll_cons (i := .createT r 8 i x) hcreate,
    executeAll_nil]

/-- Settles O43: CREATE_T after TLOADALL and CREATE build the engine of one table from two states, and S1 to S11 of a table
engine do not depend on the state it is built from. -/
theorem stagedTableEqualsSynthesizedTable : Obligations.StagedTableEqualsSynthesizedTable := by
  intro r p i x s
  obtain ⟨u, hu⟩ := executeAll_tloadAll_createT (buildTable p r) r i x s
  exact ⟨_, _, hu, execCreate_table r p i x s,
    sameEngine_tableEngine r 8 i x (buildTable p r) (buildTable p r) u s, rfl⟩

end Sys2Proof.Machine
end

section
/-! PROOFS. The Table Synthesizer: the two construction algorithms as iterated shifts (41_table_synthesizer R75, R76), and
the identities of the tables with the bitwise loop (R79, 42_digest_engine R84). -/

namespace Sys2Proof.Machine

/-! ### The rounds and the shifts -/

theorem shiftRounds_eq_iterate (shift : Byte → Byte) (rounds : Nat) (v : Byte) :
    shiftRounds shift rounds v = shift^[rounds] v := by
  induction rounds generalizing v with
  | zero => rfl
  | succ rounds ih => exact ih (shift v)

/-- A loop over `rounds` counters that does not read them is `rounds` rounds of the shift. -/
theorem foldl_range_eq_shiftRounds (shift : Byte → Byte) (rounds : Nat) (v : Byte) :
    (List.range rounds).foldl (fun u _ => shift u) v = shiftRounds shift rounds v := by
  rw [List.foldl_const, List.length_range, shiftRounds_eq_iterate]

/-- Rounds of an XOR-linear shift are XOR-linear. -/
theorem shiftRounds_xor {shift : Byte → Byte} (hshift : ∀ a b, shift (a ^^^ b) = shift a ^^^ shift b) (rounds : Nat)
    (a b : Byte) : shiftRounds shift rounds (a ^^^ b) = shiftRounds shift rounds a ^^^ shiftRounds shift rounds b := by
  induction rounds generalizing a b with
  | zero => rfl
  | succ rounds ih => simp only [shiftRounds, hshift, ih]

/-- The normal shift as one XOR: the bit leaving the top selects the polynomial (41_table_synthesizer R75). -/
theorem normalShift_eq_xor (p v : Byte) : normalShift p v = v <<< 1 ^^^ (if v.getLsbD 7 then p else 0) := by
  unfold normalShift
  split <;> simp

/-- The reflected shift as one XOR: the bit leaving the bottom selects the polynomial (41_table_synthesizer R76). -/
theorem reflectedShift_eq_xor (p v : Byte) : reflectedShift p v = v >>> 1 ^^^ (if v.getLsbD 0 then p else 0) := by
  unfold reflectedShift
  split <;> simp

/-- Selecting a value by a bit is XOR-linear in the bit. -/
theorem ite_bool_xor (b c : Bool) (p : Byte) :
    (if (b ^^ c) = true then p else 0) = (if b = true then p else 0) ^^^ (if c = true then p else 0) := by
  cases b <;> cases c <;> simp

theorem normalShift_xor (p a b : Byte) : normalShift p (a ^^^ b) = normalShift p a ^^^ normalShift p b := by
  simp only [normalShift_eq_xor, BitVec.getLsbD_xor, ite_bool_xor, BitVec.shiftLeft_xor_distrib]
  ac_rfl

theorem reflectedShift_xor (p a b : Byte) :
    reflectedShift p (a ^^^ b) = reflectedShift p a ^^^ reflectedShift p b := by
  simp only [reflectedShift_eq_xor, BitVec.getLsbD_xor, ite_bool_xor, BitVec.ushiftRight_xor_distrib]
  ac_rfl

/-! ### The entries of the two tables -/

@[simp] theorem entry_buildTableNormal (p i : Byte) :
    entry (buildTableNormal p) i = shiftRounds (normalShift p) 8 i := by
  rw [buildTableNormal, entry_tabulate]
  exact BitVec.and_allOnes

@[simp] theorem entry_buildTableReflected (p i : Byte) :
    entry (buildTableReflected p) i = shiftRounds (reflectedShift p) 8 i := by
  rw [buildTableReflected, entry_tabulate]

/-- The top bit of a byte as the spec's comparison. -/
theorem getLsbD_seven_iff (v : Byte) : v.getLsbD 7 = true ↔ 128 ≤ v.toNat := by
  rw [← BitVec.msb_eq_getLsbD_last, BitVec.msb_eq_decide, decide_eq_true_iff]

/-- The bottom bit of a byte as the spec's remainder. -/
theorem getLsbD_zero_iff (v : Byte) : v.getLsbD 0 = true ↔ v.toNat % 2 = 1 := by
  rw [BitVec.getLsbD, Nat.testBit_zero, decide_eq_true_iff]

/-- Settles O40: the round as written is the normal shift, and the loop over the eight counters is its rounds. -/
theorem normalTableShiftsLeft : Obligations.NormalTableShiftsLeft := by
  intro p i
  simp only [← getLsbD_seven_iff]
  exact (entry_buildTableNormal p i).trans (foldl_range_eq_shiftRounds (normalShift p) 8 i).symm

/-- Settles O41: the round as written is the reflected shift, and the loop over the eight counters is its rounds. -/
theorem reflectedTableShiftsRight : Obligations.ReflectedTableShiftsRight := by
  intro p i
  simp only [← getLsbD_zero_iff]
  exact (entry_buildTableReflected p i).trans (foldl_range_eq_shiftRounds (reflectedShift p) 8 i).symm

/-! ### The normal table and the bitwise loop -/

/-- One round of the bitwise loop as one XOR: the carry, flipped by the input bit, selects the polynomial
(42_digest_engine R84). -/
theorem digestRound_eq_xor {h a : Nat} (hh : h < 8) (ha : a < 8) (p n sum : Byte) :
    digestRound (BitVec.twoPow 8 h) p n (BitVec.twoPow 8 a) sum =
      sum <<< 1 ^^^ (if (sum.getLsbD h ^^ n.getLsbD a) = true then p else 0) := by
  rw [digestRound, BitVec.and_twoPow, BitVec.and_twoPow]
  cases sum.getLsbD h <;> cases n.getLsbD a <;> simp [twoPow_ne_zero hh, twoPow_ne_zero ha]

/-- The round of input bit `a` and the normal shift step together: the shift's value is the sum XORed with the input bits
still to come, moved up to the top. -/
theorem digestRound_xor_shiftLeft {a : Nat} (ha : a < 8) (p n sum : Byte) :
    digestRound 0x80 p n (BitVec.twoPow 8 a) sum ^^^ n <<< (8 - a) = normalShift p (sum ^^^ n <<< (7 - a)) := by
  have hround := digestRound_eq_xor (h := 7) (by omega) ha p n sum
  have hbit : (n <<< (7 - a)).getLsbD 7 = n.getLsbD a := by
    have hback : 7 - (7 - a) = a := by omega
    have hreach : ¬ 7 < 7 - a := by omega
    rw [BitVec.getLsbD_shiftLeft, hback]
    simp [hreach]
  have hshift : n <<< (7 - a) <<< 1 = n <<< (8 - a) := by
    rw [← BitVec.shiftLeft_add, show 7 - a + 1 = 8 - a by omega]
  rw [normalShift_eq_xor, BitVec.getLsbD_xor, hbit, BitVec.shiftLeft_xor_distrib, hshift]
  refine (congrArg (· ^^^ n <<< (8 - a)) hround).trans ?_
  ac_rfl

/-- One round of the while loop, taken while `i` is not 0 (42_digest_engine R84). -/
theorem digestLoopFrom_succ_of_ne {i : Byte} (hi : i ≠ 0) (h p n : Byte) (rounds : Nat) (sum : Byte) :
    digestLoopFrom h p n (rounds + 1) i sum = digestLoopFrom h p n rounds (i >>> 1) (digestRound h p n i sum) :=
  if_neg hi

/-- The loop from input bit `a` down to bit 0 is `a + 1` shifts of the sum XORed with those bits. -/
theorem digestLoopFrom_eq_shiftRounds (p n : Byte) {a : Nat} :
    ∀ sum : Byte, a < 8 → digestLoopFrom 0x80 p n (a + 1) (BitVec.twoPow 8 a) sum =
      shiftRounds (normalShift p) (a + 1) (sum ^^^ n <<< (7 - a)) := by
  induction a with
  | zero =>
    intro sum ha
    have hround := digestRound_xor_shiftLeft ha p n sum
    rw [Nat.sub_zero, BitVec.shiftLeft_eq_zero (Nat.le_refl 8), BitVec.xor_zero] at hround
    rw [digestLoopFrom_succ_of_ne (twoPow_ne_zero ha), digestLoopFrom, hround]
    rfl
  | succ a ih =>
    intro sum ha
    have hround := digestRound_xor_shiftLeft ha p n sum
    rw [Nat.add_sub_add_right 7 1 a] at hround
    rw [digestLoopFrom_succ_of_ne (twoPow_ne_zero ha), twoPow_succ_ushiftRight ha, ih _ (by omega), hround]
    rfl

/-- The bitwise loop of width 8 is the normal table's entry of the sum XORed with the byte (41_table_synthesizer R79,
42_digest_engine R83, R84). -/
theorem digestLoop_eq_entry (p n sum : Byte) : digestLoop 0x80 p n sum = entry (buildTableNormal p) (sum ^^^ n) := by
  rw [entry_buildTableNormal]
  exact (digestLoopFrom_eq_shiftRounds p n (a := 7) sum (by omega)).trans (by simp)

/-- From sum 0 the bitwise loop is the normal table's entry of the byte (41_table_synthesizer R79). -/
theorem digestLoop_zero (p n : Byte) : digestLoop 0x80 p n 0 = entry (buildTableNormal p) n := by
  rw [digestLoop_eq_entry]
  exact congrArg _ BitVec.zero_xor

/-! ### The reflected table as a mirror of the normal one

The mirror is `reflectBits` at the high bit 0x80 (40_normalizer R64, 42_digest_engine R85). -/

/-- The mirror over all 8 bits, bit by bit (40_normalizer R62). -/
theorem getLsbD_mirror (n : Byte) {k : Nat} (hk : k < 8) : (reflectBits 0x80 n).getLsbD k = n.getLsbD (7 - k) := by
  refine (getLsbD_reflectBits (a := 7) (by omega) n k).trans ?_
  simp [Nat.le_of_lt_succ hk]

/-- Mirroring all 8 bits twice gives the byte back (40_normalizer R64). -/
theorem mirror_mirror (n : Byte) : reflectBits 0x80 (reflectBits 0x80 n) = n :=
  (reflectBits_reflectBits (a := 7) (by omega) n).trans BitVec.and_allOnes

theorem mirror_xor (a b : Byte) : reflectBits 0x80 (a ^^^ b) = reflectBits 0x80 a ^^^ reflectBits 0x80 b := by
  refine BitVec.eq_of_getLsbD_eq fun k hk => ?_
  simp only [getLsbD_mirror _ hk, BitVec.getLsbD_xor]

/-- A left shift is a right shift in the mirror. -/
theorem mirror_shiftLeft_one (n : Byte) : reflectBits 0x80 (n <<< 1) = reflectBits 0x80 n >>> 1 := by
  refine BitVec.eq_of_getLsbD_eq fun k hk => ?_
  rw [getLsbD_mirror _ hk, BitVec.getLsbD_ushiftRight, BitVec.getLsbD_shiftLeft]
  by_cases hk7 : k = 7
  · subst hk7
    simp
  · have hsame : 7 - k - 1 = 7 - (1 + k) := by omega
    have hinside : 7 - k < 8 ∧ ¬ 7 - k < 1 := by omega
    rw [getLsbD_mirror n (by omega), hsame]
    simp only [hinside, decide_true, decide_false, Bool.not_false, Bool.true_and]

/-- The normal shift is the reflected shift in the mirror, with the polynomial mirrored (41_table_synthesizer R76). -/
theorem mirror_normalShift (p : Byte) :
    Function.Semiconj (reflectBits 0x80) (normalShift p) (reflectedShift (reflectBits 0x80 p)) := by
  intro v
  rw [normalShift_eq_xor, reflectedShift_eq_xor, mirror_xor, mirror_shiftLeft_one, getLsbD_mirror v (by omega),
    apply_ite (reflectBits 0x80)]
  rfl

/-- An entry of the reflected table is the mirror of the normal entry of the mirrored index, for the mirrored polynomial
(41_table_synthesizer R79). -/
theorem entry_buildTableReflected_eq_mirror (p i : Byte) :
    entry (buildTableReflected p) i =
      reflectBits 0x80 (entry (buildTableNormal (reflectBits 0x80 p)) (reflectBits 0x80 i)) := by
  have h := (mirror_normalShift (reflectBits 0x80 p)).iterate_right 8 (reflectBits 0x80 i)
  rw [mirror_mirror, mirror_mirror] at h
  rw [entry_buildTableReflected, entry_buildTableNormal, shiftRounds_eq_iterate, shiftRounds_eq_iterate, h]

/-! ### Linearity -/

/-- The normal table is linear (41_table_synthesizer R79). -/
theorem entry_buildTableNormal_xor (p a b : Byte) :
    entry (buildTableNormal p) (a ^^^ b) = entry (buildTableNormal p) a ^^^ entry (buildTableNormal p) b := by
  simp only [entry_buildTableNormal, shiftRounds_xor (normalShift_xor p)]

/-- The reflected table is linear (41_table_synthesizer R79). -/
theorem entry_buildTableReflected_xor (p a b : Byte) :
    entry (buildTableReflected p) (a ^^^ b) = entry (buildTableReflected p) a ^^^ entry (buildTableReflected p) b := by
  simp only [entry_buildTableReflected, shiftRounds_xor (reflectedShift_xor p)]

/-- Entry 0 of a linear table is 0. -/
theorem entry_zero_of_xor {t : Indexed Byte} (h : ∀ a b, entry t (a ^^^ b) = entry t a ^^^ entry t b) : entry t 0 = 0 := by
  simpa using h 0 0

/-- Entry 1 of the normal table is the polynomial: seven shifts bring the bit to the top, the eighth drops it there
(41_table_synthesizer R79). -/
theorem entry_buildTableNormal_one (p : Byte) : entry (buildTableNormal p) 1 = p := by
  have hseven : shiftRounds (normalShift p) 8 1 = normalShift p 0x80 := by
    simp [shiftRounds, normalShift]
  rw [entry_buildTableNormal, hseven]
  exact BitVec.zero_xor

/-- Entry 0x80 of the reflected table is the polynomial, as entry 1 of the normal one is (41_table_synthesizer R79). -/
theorem entry_buildTableReflected_top (p : Byte) : entry (buildTableReflected p) 0x80 = p := by
  have hone : reflectBits 0x80 0x80 = 1 := by decide
  rw [entry_buildTableReflected_eq_mirror, hone, entry_buildTableNormal_one, mirror_mirror]

/-- Settles O42: the identities of the tables, each by its own lemma. -/
theorem tableIdentities : Obligations.TableIdentities := by
  refine ⟨fun p i => ?_, fun p i => ?_, fun p a b => ⟨entry_buildTableNormal_xor p a b, entry_buildTableReflected_xor p a b,
    entry_zero_of_xor (entry_buildTableNormal_xor p), entry_zero_of_xor (entry_buildTableReflected_xor p)⟩,
    fun p => ⟨entry_buildTableNormal_one p, entry_buildTableReflected_top p⟩⟩
  · rw [digestLoop_zero]
  · rw [digestLoop_zero, entry_buildTableReflected_eq_mirror]

end Sys2Proof.Machine
end

section
/-! PROOFS. The digest engine, one command at a time: the three data paths of DIGEST, RESET and GET_CRC as equations on the
registers (42_digest_engine R82 to R88). -/

namespace Sys2Proof.Machine

/-! ### The bitwise loop as a fold over the input bits (42_digest_engine R84, R85) -/

/-- One round of the bitwise loop from the input bit itself: the carry at HIGH_BIT, flipped by the bit, decides whether the
polynomial is XORed in (42_digest_engine R84). -/
def digestBit (highBit poly : Byte) (bit : Bool) (sum : Byte) : Byte :=
  if (if bit = true then (sum &&& highBit) ^^^ highBit else sum &&& highBit) = 0 then sum <<< 1 else (sum <<< 1) ^^^ poly

/-- The round whose selector is bit `k` reads bit `k` of the input. -/
theorem digestRound_twoPow {k : Nat} (hk : k < 8) (hb p n sum : Byte) :
    digestRound hb p n (BitVec.twoPow 8 k) sum = digestBit hb p (n.getLsbD k) sum := by
  rw [digestRound, digestBit, BitVec.and_twoPow]
  cases n.getLsbD k <;> simp [twoPow_ne_zero hk]

/-- The loop visits bits of a byte alone. -/
theorem lt_eight_of_mem : ∀ k ∈ [7, 6, 5, 4, 3, 2, 1, 0], k < 8 := by decide

/-- The bitwise loop folds the rounds of input bits 7 to 0. -/
theorem digestLoop_eq_foldl_rounds (hb p n sum : Byte) :
    digestLoop hb p n sum =
      [7, 6, 5, 4, 3, 2, 1, 0].foldl (fun v k => digestRound hb p n (BitVec.twoPow 8 k) v) sum :=
  digestLoop_eq_rounds hb p n sum

/-- The bitwise loop folds the input bits 7 to 0 (42_digest_engine R84). -/
theorem digestLoop_eq_foldl_bits (hb p n sum : Byte) :
    digestLoop hb p n sum = [7, 6, 5, 4, 3, 2, 1, 0].foldl (fun v k => digestBit hb p (n.getLsbD k) v) sum := by
  rw [digestLoop_eq_foldl_rounds]
  exact List.foldl_ext _ _ _ fun v k hk => digestRound_twoPow (lt_eight_of_mem k hk) hb p n v

/-- On the mirrored byte the loop folds the bits of the byte itself from 0 to 7 (42_digest_engine R85). -/
theorem digestLoop_mirror_eq_foldl_bits (hb p n sum : Byte) :
    digestLoop hb p (reflectBits 0x80 n) sum =
      [0, 1, 2, 3, 4, 5, 6, 7].foldl (fun v k => digestBit hb p (n.getLsbD k) v) sum := by
  rw [digestLoop_eq_foldl_bits, show [0, 1, 2, 3, 4, 5, 6, 7] = [7, 6, 5, 4, 3, 2, 1, 0].map (7 - ·) from rfl,
    List.foldl_map]
  refine List.foldl_ext _ _ _ fun v k hk => ?_
  rw [getLsbD_mirror n (lt_eight_of_mem k hk)]

/-! ### SUM after one byte and the checksum, path by path -/

section Paths

variable {s : State}

/-- The table path is one lookup (42_digest_engine R83). -/
theorem digestedSum_table (hbt : s.byTable = true) (b : Byte) :
    s.digestedSum b = entry s.lut ((s.sum ^^^ b) &&& 0xFF) := by
  simp only [State.digestedSum, hbt, digestPath_table, State.tableRead]

/-- The index of the lookup is a byte, so the AND keeps all of it. -/
theorem digestedSum_table_byte (hbt : s.byTable = true) (b : Byte) : s.digestedSum b = entry s.lut (s.sum ^^^ b) :=
  (digestedSum_table hbt b).trans (congrArg (entry s.lut) BitVec.and_allOnes)

/-- Both bitwise paths are the loop, on the byte or on its mirror (42_digest_engine R84, R85). -/
theorem digestedSum_bitwise (hbt : s.byTable = false) (b : Byte) :
    s.digestedSum b = digestLoop s.highBit s.poly (bitwiseByte s.reflect b) s.sum := by
  cases hr : s.reflect <;> simp [State.digestedSum, hbt, hr]

/-- The non-reflected path is the loop on the byte (42_digest_engine R84). -/
theorem digestedSum_normal (hbt : s.byTable = false) (hr : s.reflect = false) (b : Byte) :
    s.digestedSum b = digestLoop s.highBit s.poly b s.sum := by
  rw [digestedSum_bitwise hbt, hr, bitwiseByte_false]

/-- The reflected path is the loop on the mirrored byte (42_digest_engine R85). -/
theorem digestedSum_reflected (hbt : s.byTable = false) (hr : s.reflect = true) (b : Byte) :
    s.digestedSum b = digestLoop s.highBit s.poly (reflectBits 0x80 b) s.sum := by
  rw [digestedSum_bitwise hbt, hr, bitwiseByte_true]

/-- DIGEST writes SUM and the response, nothing else (42_digest_engine R82). -/
theorem exec_digest_of_sum {b v : Byte} (hc : s.cfgValid = true) (hv : s.digestedSum b = v) :
    exec (.digest b) s = .next { s with sum := v, response := some 0 } := by
  subst hv
  exact execDigest_configured b s hc

end Paths

/-- The readout un-reflects SUM on the bitwise reflected path alone (42_digest_engine R88). -/
theorem checksum_eq (s : State) :
    s.checksum = ((if s.byTable = false ∧ s.reflect = true then reflectBits s.highBit s.sum else s.sum) ^^^ s.finalXor)
      &&& s.mask := by
  cases hbt : s.byTable <;> cases hr : s.reflect <;> simp [State.checksum, hbt, hr]

/-! ### The commands -/

/-- Settles O21: the three paths by their equations, and the decoder's equation for OP 4. -/
theorem digestFoldsOneByte : Obligations.DigestFoldsOneByte := by
  refine ⟨fun b s => ⟨fun hc => execDigest_notConfigured b s hc, fun hc => exec_digest_of_sum hc ?_⟩,
    fun w s op hnz => executeWord_illegal ((decode_op4 op).trans (if_neg hnz)) s⟩
  cases hbt : s.byTable with
  | true => exact digestedSum_table_byte hbt b
  | false =>
    cases hr : s.reflect with
    | false => exact digestedSum_normal hbt hr b
    | true => exact digestedSum_reflected hbt hr b

/-- Settles O22: the lookup reads LUT and SUM alone. -/
theorem tablePathIsOneLookup : Obligations.TablePathIsOneLookup :=
  fun b s refl poly hb m hc hbt =>
    ⟨_, execDigest_configured b _ hc,
      digestedSum_table (s := { s with reflect := refl, poly := poly, highBit := hb, mask := m }) hbt b⟩

/-- Settles O23: the loop is a fold over the bits from 7 on. -/
theorem bitwiseNormalPathTakesTheHighBitFirst : Obligations.BitwiseNormalPathTakesTheHighBitFirst :=
  fun b s hc hbt hr => exec_digest_of_sum hc
    ((digestedSum_normal hbt hr b).trans (digestLoop_eq_foldl_bits s.highBit s.poly b s.sum))

/-- Settles O24: the loop on the mirrored byte is a fold over the byte's own bits from 0 on. -/
theorem bitwiseReflectedPathTakesTheLowBitFirst : Obligations.BitwiseReflectedPathTakesTheLowBitFirst :=
  fun b s hc hbt hr => exec_digest_of_sum hc
    ((digestedSum_reflected hbt hr b).trans (digestLoop_mirror_eq_foldl_bits s.highBit s.poly b s.sum))

/-- Settles O25: RESET is its equation, idempotent by `reset_idempotent`, and the decoder's equation for OP 5. -/
theorem resetRestoresTheStartingSum : Obligations.ResetRestoresTheStartingSum := by
  refine ⟨fun s => ⟨fun hc => execReset_notConfigured s hc, fun hc => ?_⟩,
    fun w s op hnz => executeWord_illegal ((decode_op5 op).trans (if_neg hnz)) s⟩
  have hreset : exec .reset s = .next ((s.setSum s.sum0).present 0) := execReset_configured s hc
  exact ⟨_, hreset, reset_idempotent hreset, rfl⟩

/-- GET_CRC with an engine answers its checksum. -/
theorem response_getCrc {s t : State} (h : exec .getCrc s = .next t) (hc : s.cfgValid = true) :
    t.response = some (successWord s.checksum) := by
  cases (execGetCrc_configured s hc).symm.trans h
  rfl

/-- Masking a value before an XOR and a mask with the same MASK changes nothing. -/
theorem and_xor_and_same (a x m : Byte) : ((a &&& m) ^^^ x) &&& m = (a ^^^ x) &&& m := by
  refine BitVec.eq_of_getLsbD_eq fun k _ => ?_
  simp only [BitVec.getLsbD_and, BitVec.getLsbD_xor]
  cases m.getLsbD k <;> simp

/-- Right after CREATE at a width below 8 with `reflect` set the readout undoes the reflection of the initial value, up to
the bits that MASK clears anyway (42_digest_engine R88, 40_normalizer R64). -/
theorem unreflect_and_mask {w : Nat} (h1 : 1 ≤ w) (h8 : w ≤ 8) (i x : Byte) :
    (reflectBits (BitVec.ofNat 8 (2 ^ (w - 1))) (reflectBits (BitVec.ofNat 8 (2 ^ (w - 1))) i) ^^^ x)
      &&& BitVec.ofNat 8 (2 ^ w - 1) = (i ^^^ x) &&& BitVec.ofNat 8 (2 ^ w - 1) := by
  rw [ofNat_two_pow_eq_twoPow, reflectBits_reflectBits (by omega), Nat.sub_add_cancel h1, and_xor_and_same]

/-- Settles O26: GET_CRC answers `checksum_eq`, and the registers right after CREATE are those of O18. -/
theorem getCrcReadsTheChecksum : Obligations.GetCrcReadsTheChecksum := by
  refine ⟨fun s => ⟨fun hc => execGetCrc_notConfigured s hc, fun hc => (execGetCrc_configured s hc).trans ?_⟩,
    fun w s op hnz => executeWord_illegal ((decode_op6 op).trans (if_neg hnz)) s,
    fun r wd p i x s t u h1 h8 hcreate hget => ?_⟩
  · rw [checksum_eq]
    rfl
  · obtain ⟨-, hbuilt, -⟩ := createBuildsTheEngine r wd p i x s
    obtain ⟨t', ht', hc, -, hr, -, hx, hhb, hm, hsum, hpath, -⟩ := hbuilt h1 h8
    cases ht'.symm.trans hcreate
    rw [response_getCrc hget hc, checksum_eq, hx, hr, hm]
    by_cases heq : wd.toNat = 8
    · rw [if_pos heq] at hpath
      obtain ⟨hbt, -⟩ := hpath
      simp [hbt, heq, successWord]
    · rw [if_neg heq] at hpath
      obtain ⟨hbt, -⟩ := hpath
      have hlt : wd.toNat < 8 := by omega
      cases r with
      | false => simp [successWord]
      | true =>
        rw [if_pos ⟨hbt, rfl⟩, if_pos ⟨hlt, rfl⟩, hsum, if_pos rfl, hhb, unreflect_and_mask h1 h8]
        rfl

/-- Settles O46: the readout ends in an AND with MASK. -/
theorem checksumIsMasked : Obligations.ChecksumIsMasked := by
  intro s t hc h
  refine ⟨s.checksum, response_getCrc h hc, ?_⟩
  rw [checksum_eq, BitVec.and_assoc, BitVec.and_not_self]
  exact BitVec.and_zero

end Sys2Proof.Machine
end

section
/-! PROOFS. Runs of DIGEST (42_digest_engine R86): the state and the readout after a byte sequence, RESET after it (R92), and
the table engine against the bitwise datapath of width 8 (R93). -/

namespace Sys2Proof.Machine

/-! ### A run of commands and a run of DIGESTs -/

/-- Commands executed after others start where those end. -/
theorem executeAll_append {is : List Instr} (js : List Instr) :
    ∀ {s t : State}, executeAll is s = .next t → executeAll (is ++ js) s = executeAll js t := by
  induction is with
  | nil =>
    rintro s t h
    cases h
    rfl
  | cons i is ih =>
    intro s t h
    obtain ⟨u, r, hu, -, -⟩ := exec_presents i s
    rw [executeAll_cons hu] at h
    rw [List.cons_append, executeAll_cons hu, ih h]

/-- SUM after a byte sequence: the digested sum, byte by byte, the other registers staying as they are
(42_digest_engine R86). -/
def State.sumAfter (bs : List Byte) (s : State) : Byte := bs.foldl (fun v b => (s.setSum v).digestedSum b) s.sum

@[simp] theorem digestBytes_nil (s : State) : digestBytes [] s = .next s := rfl

theorem digestBytes_cons {b : Byte} {s t : State} (h : exec (.digest b) s = .next t) (bs : List Byte) :
    digestBytes (b :: bs) s = digestBytes bs t :=
  executeAll_cons h _

/-- With an engine a byte sequence writes SUM and the response, nothing else (42_digest_engine R82, R86). -/
theorem digestBytes_configured (bs : List Byte) :
    ∀ {s : State}, s.cfgValid = true →
      ∃ r, digestBytes bs s = .next { s with sum := s.sumAfter bs, response := r } := by
  induction bs with
  | nil => exact fun {s} _ => ⟨s.response, rfl⟩
  | cons b bs ih =>
    intro s hc
    have hstep := exec_digest_of_sum (b := b) hc rfl
    obtain ⟨r, hr⟩ := ih (s := { s with sum := s.digestedSum b, response := some 0 }) hc
    exact ⟨r, (digestBytes_cons hstep bs).trans hr⟩

/-- Without an engine a byte sequence writes the response alone (42_digest_engine R82). -/
theorem digestBytes_notConfigured (bs : List Byte) :
    ∀ {s : State}, s.cfgValid = false → ∃ r, digestBytes bs s = .next { s with response := r } := by
  induction bs with
  | nil => exact fun {s} _ => ⟨s.response, rfl⟩
  | cons b bs ih =>
    intro s hc
    have hstep : exec (.digest b) s = .next (s.present 0x80000300) := execDigest_notConfigured b s hc
    obtain ⟨r, hr⟩ := ih (s := s.present 0x80000300) hc
    exact ⟨r, (digestBytes_cons hstep bs).trans hr⟩

/-- `digestBytes_configured` read from a run's end. -/
theorem digestBytes_next {bs : List Byte} {s t : State} (h : digestBytes bs s = .next t) (hc : s.cfgValid = true) :
    ∃ r, t = { s with sum := s.sumAfter bs, response := r } := by
  obtain ⟨r, hr⟩ := digestBytes_configured bs hc
  cases hr.symm.trans h
  exact ⟨r, rfl⟩

/-- RESET with an engine sets SUM to the starting sum (42_digest_engine R87). -/
theorem reset_next {s t : State} (h : exec .reset s = .next t) (hc : s.cfgValid = true) :
    t = (s.setSum s.sum0).present 0 := by
  cases (execReset_configured s hc).symm.trans h
  rfl

/-- GET_CRC after a byte sequence answers the checksum of the sum that the sequence leaves. -/
theorem response_getCrc_digestBytes {bs : List Byte} {s t u : State} (hc : s.cfgValid = true)
    (ht : digestBytes bs s = .next t) (hu : exec .getCrc t = .next u) :
    u.response = some (successWord (s.setSum (s.sumAfter bs)).checksum) := by
  obtain ⟨r, rfl⟩ := digestBytes_next ht hc
  exact response_getCrc hu hc

/-- Settles O44: a run of commands splits, and a byte sequence writes SUM and the response alone. -/
theorem digestIsIncremental : Obligations.DigestIsIncremental := by
  refine ⟨digestBytes_nil, fun a b s t h => ?_, fun bs s => ?_⟩
  · rw [digestBytes, List.map_append]
    exact executeAll_append _ h
  · obtain hc | hc := Bool.eq_false_or_eq_true s.cfgValid
    · obtain ⟨r, hr⟩ := digestBytes_configured bs hc
      exact ⟨_, hr, rfl⟩
    · obtain ⟨r, hr⟩ := digestBytes_notConfigured bs hc
      exact ⟨_, hr, rfl⟩

/-- A successful construction leaves an engine whose SUM is its starting sum (40_normalizer R67). -/
theorem sum_eq_sum0_of_construction {c : Instr} {s t : State}
    (hi : (∃ r wd p i x, c = .create r wd p i x) ∨ ∃ r wd i x, c = .createT r wd i x) (h : exec c s = .next t)
    (ht : t.response = some 0) : t.cfgValid = true ∧ t.sum = t.sum0 := by
  obtain ⟨r, wd, p, i, x, rfl⟩ | ⟨r, wd, i, x, rfl⟩ := hi
  · obtain ⟨rfl, rfl⟩ | ⟨-, -, rfl⟩ := create_of_success h ht
    · exact ⟨rfl, rfl⟩
    · exact ⟨rfl, rfl⟩
  · obtain ⟨rfl, rfl⟩ := createT_of_success h ht
    exact ⟨rfl, rfl⟩

/-- Settles O45: the digests and RESET leave the registers of the construction, SUM at the starting sum it had there. -/
theorem resetRoundTrip : Obligations.ResetRoundTrip := by
  intro bs s t u v a b c hi hcreate ht hu hv ha hb
  obtain ⟨hc, hsum⟩ := sum_eq_sum0_of_construction hi hcreate ht
  obtain ⟨r, rfl⟩ := digestBytes_next hu hc
  obtain rfl := reset_next hv hc
  rw [response_getCrc ha hc, response_getCrc hb hc]
  refine congrArg (fun w => some (successWord w)) ?_
  rw [checksum_eq, checksum_eq t, hsum]
  rfl

/-! ### The table engine and the width-8 bitwise datapath (42_digest_engine R93) -/

/-- On the table path a byte sequence is one lookup a byte (42_digest_engine R83). -/
theorem sumAfter_table {s : State} (hbt : s.byTable = true) (bs : List Byte) :
    s.sumAfter bs = bs.foldl (fun v b => entry s.lut (v ^^^ b)) s.sum :=
  List.foldl_ext _ _ _ fun v b _ => digestedSum_table_byte (s := s.setSum v) hbt b

/-- The width-8 bitwise datapath looks the byte, mirrored when `reflect` is set, up in the normal table of its polynomial
(41_table_synthesizer R79). -/
theorem sumAfter_bitwise8 {s : State} (hbt : s.byTable = false) (hhb : s.highBit = 0x80) (bs : List Byte) :
    s.sumAfter bs =
      bs.foldl (fun v b => entry (buildTableNormal s.poly) (v ^^^ bitwiseByte s.reflect b)) s.sum := by
  refine List.foldl_ext _ _ _ fun v b _ => ?_
  rw [digestedSum_bitwise (s := s.setSum v) hbt, State.setSum_highBit, hhb, digestLoop_eq_entry]
  rfl

/-- The reflected table's run is the mirror of the bitwise run on mirrored operands: the table of the mirrored polynomial
looks mirrored bytes up (41_table_synthesizer R79). -/
theorem foldl_reflectedTable (p v : Byte) (bs : List Byte) :
    bs.foldl (fun v b => entry (buildTableReflected p) (v ^^^ b)) (reflectBits 0x80 v) =
      reflectBits 0x80
        (bs.foldl (fun v b => entry (buildTableNormal (reflectBits 0x80 p)) (v ^^^ reflectBits 0x80 b)) v) := by
  refine List.foldl_hom (reflectBits 0x80) fun v b => ?_
  rw [entry_buildTableReflected_eq_mirror, mirror_xor, mirror_mirror]

/-- The 16 initial values of 42_digest_engine R93 are their own mirrors. -/
theorem mirror_of_palindrome : ∀ i ∈ [0x00, 0x18, 0x24, 0x3C, 0x42, 0x5A, 0x66, 0x7E, 0x81, 0x99, 0xA5, 0xBD, 0xC3, 0xDB,
    0xE7, (0xFF : Byte)], reflectBits 0x80 i = i := by decide

/-- The table engine that CREATE builds at width 8 (40_normalizer R69). -/
def tableEngine8 (r : Bool) (p i x : Byte) (s : State) : State :=
  (((s.normalize r 8 i x).installTable (buildTable p r)).configure).present 0

/-- CREATE at width 8 leaves that engine, whatever the operands (40_normalizer R71). -/
theorem create8_next {r : Bool} {p i x : Byte} {s t : State} (h : exec (.create r 8 p i x) s = .next t) :
    t = tableEngine8 r p i x s := by
  cases (execCreate_table r p i x s).symm.trans h
  rfl

/-- Without reflection the two engines fold the same lookups from the same sum. -/
theorem sumAfter_tableEngine8_normal (p i x : Byte) (s : State) (bs : List Byte) :
    (tableEngine8 false p i x s).sumAfter bs = (bitwiseEngine8 false p i x s).sumAfter bs := by
  rw [sumAfter_table rfl, sumAfter_bitwise8 rfl rfl]
  rfl

/-- With reflection the sum of the table engine is the mirror of the bitwise one, from an initial value that is its own
mirror. -/
theorem sumAfter_tableEngine8_reflected (p x : Byte) {i : Byte} (hi : reflectBits 0x80 i = i) (s : State)
    (bs : List Byte) :
    (tableEngine8 true p i x s).sumAfter bs = reflectBits 0x80 ((bitwiseEngine8 true p i x s).sumAfter bs) := by
  rw [sumAfter_table rfl, sumAfter_bitwise8 rfl rfl]
  refine Eq.trans ?_ (foldl_reflectedTable p (reflectBits 0x80 i) bs)
  rw [mirror_mirror]
  exact congrArg (bs.foldl _) hi

/-- The two engines of width 8 read out the same checksum (42_digest_engine R93). -/
theorem checksum_tableEngine8 (r : Bool) (p x : Byte) {i : Byte} (hi : r = false ∨ reflectBits 0x80 i = i) (s : State)
    (bs : List Byte) :
    ((tableEngine8 r p i x s).setSum ((tableEngine8 r p i x s).sumAfter bs)).checksum =
      ((bitwiseEngine8 r p i x s).setSum ((bitwiseEngine8 r p i x s).sumAfter bs)).checksum := by
  cases r with
  | false =>
    rw [sumAfter_tableEngine8_normal]
    rfl
  | true =>
    rw [sumAfter_tableEngine8_reflected p x (hi.resolve_left nofun)]
    rfl

/-- Settles O47: the checksums agree by `checksum_tableEngine8`, and the counterexample is run. -/
theorem tableAndBitwiseDatapathsAgree : Obligations.TableAndBitwiseDatapathsAgree := by
  refine ⟨fun r p i x bs s t t' c b b' hi ht ht' hc hb hb' => ?_,
    ⟨_, _, _, _, _, rfl, rfl, rfl, by decide +kernel, rfl, rfl, by decide +kernel⟩⟩
  obtain rfl := create8_next ht
  rw [response_getCrc_digestBytes rfl ht' hc, response_getCrc_digestBytes rfl hb hb',
    checksum_tableEngine8 r p x (hi.imp_right (mirror_of_palindrome i)) s bs]

end Sys2Proof.Machine
end

section
/-! PROOFS. No bit at or above WIDTH reaches the readout (42_digest_engine R91): two engines that agree on the bits below it
agree on them after every byte. -/

namespace Sys2Proof.Machine

/-! ### Bytes that agree below a width -/

/-- The two bytes have the same low `w` bits. -/
def EqBelow (w : Nat) (a b : Byte) : Prop := ∀ k < w, a.getLsbD k = b.getLsbD k

theorem eqBelow_of_mod_eq {w : Nat} {a b : Byte} (h : a.toNat % 2 ^ w = b.toNat % 2 ^ w) : EqBelow w a b := by
  intro k hk
  have hbit : (a.toNat % 2 ^ w).testBit k = (b.toNat % 2 ^ w).testBit k := congrArg (·.testBit k) h
  simp only [Nat.testBit_mod_two_pow, hk, decide_true, Bool.true_and] at hbit
  exact hbit

theorem EqBelow.refl (w : Nat) (a : Byte) : EqBelow w a a := fun _ _ => rfl

theorem EqBelow.xor {w : Nat} {a b c d : Byte} (hab : EqBelow w a b) (hcd : EqBelow w c d) :
    EqBelow w (a ^^^ c) (b ^^^ d) := by
  intro k hk
  rw [BitVec.getLsbD_xor, BitVec.getLsbD_xor, hab k hk, hcd k hk]

theorem EqBelow.shiftLeft_one {w : Nat} {a b : Byte} (h : EqBelow w a b) : EqBelow w (a <<< 1) (b <<< 1) := by
  intro k hk
  rw [BitVec.getLsbD_shiftLeft, BitVec.getLsbD_shiftLeft, h (k - 1) (by omega)]

theorem EqBelow.eq_of_le {w : Nat} {a b : Byte} (h : EqBelow w a b) (hw : 8 ≤ w) : a = b :=
  BitVec.eq_of_getLsbD_eq fun k hk => h k (by omega)

/-- Masking with the low `w` bits leaves no difference. -/
theorem EqBelow.and_mask {w : Nat} {a b : Byte} (h : EqBelow w a b) :
    a &&& BitVec.ofNat 8 (2 ^ w - 1) = b &&& BitVec.ofNat 8 (2 ^ w - 1) := by
  refine BitVec.eq_of_getLsbD_eq fun k _ => ?_
  rw [BitVec.getLsbD_and, BitVec.getLsbD_and, BitVec.getLsbD_ofNat, Nat.testBit_two_pow_sub_one]
  by_cases hk : k < w
  · rw [h k hk]
  · simp [hk]

/-- Reflection at bit `w - 1` reads the low `w` bits alone (40_normalizer R62). -/
theorem EqBelow.reflectBits_eq {a : Nat} (ha : a < 8) {m n : Byte} (h : EqBelow (a + 1) m n) :
    reflectBits (BitVec.twoPow 8 a) m = reflectBits (BitVec.twoPow 8 a) n := by
  refine BitVec.eq_of_getLsbD_eq fun k _ => ?_
  rw [getLsbD_reflectBits ha, getLsbD_reflectBits ha, h (a - k) (by omega)]

/-- The starting sums of initial values that agree below the width agree there (40_normalizer R67). -/
theorem EqBelow.startingSum {wd : BitVec 4} (legal : widthLegal wd = true) (r : Bool) {m n : Byte}
    (h : EqBelow wd.toNat m n) :
    EqBelow wd.toNat (Machine.startingSum r (highBitOf wd) m) (Machine.startingSum r (highBitOf wd) n) := by
  obtain ⟨h1, h8⟩ := (widthLegal_iff wd).1 legal
  obtain ⟨a, hw⟩ := Nat.exists_eq_add_of_le' h1
  have hhb : highBitOf wd = BitVec.twoPow 8 a := by
    rw [highBitOf_eq legal, hw, Nat.add_sub_cancel, ofNat_two_pow_eq_twoPow]
  cases r with
  | false => exact h
  | true =>
    rw [startingSum_true, startingSum_true, hhb, EqBelow.reflectBits_eq (by omega) (hw ▸ h)]
    exact EqBelow.refl _ _

/-- The bitwise polynomials of operands that agree below the width agree there: the polynomial is reflected as the initial
value is (40_normalizer R68). -/
theorem EqBelow.bitwisePoly {wd : BitVec 4} (legal : widthLegal wd = true) (r : Bool) {m n : Byte}
    (h : EqBelow wd.toNat m n) :
    EqBelow wd.toNat (Machine.bitwisePoly r (highBitOf wd) m) (Machine.bitwisePoly r (highBitOf wd) n) :=
  h.startingSum legal r

/-! ### The bitwise loop below the width -/

/-- A round at high bit `a` moves bits up only, and its carry is bit `a`, so it keeps the agreement on the bits up to `a`. -/
theorem EqBelow.digestRound {a : Nat} (ha : a < 8) {p q v u : Byte} (hp : EqBelow (a + 1) p q)
    (hv : EqBelow (a + 1) v u) (n : Byte) {k : Nat} (hk : k < 8) :
    EqBelow (a + 1) (Machine.digestRound (BitVec.twoPow 8 a) p n (BitVec.twoPow 8 k) v)
      (Machine.digestRound (BitVec.twoPow 8 a) q n (BitVec.twoPow 8 k) u) := by
  rw [digestRound_eq_xor ha hk, digestRound_eq_xor ha hk, hv a (Nat.lt_succ_self a)]
  refine hv.shiftLeft_one.xor ?_
  split
  · exact hp
  · exact EqBelow.refl _ _

theorem EqBelow.digestLoop {a : Nat} (ha : a < 8) {p q v u : Byte} (hp : EqBelow (a + 1) p q)
    (hv : EqBelow (a + 1) v u) (n : Byte) :
    EqBelow (a + 1) (Machine.digestLoop (BitVec.twoPow 8 a) p n v) (Machine.digestLoop (BitVec.twoPow 8 a) q n u) := by
  rw [digestLoop_eq_foldl_rounds, digestLoop_eq_foldl_rounds]
  exact List.foldl_rel hv fun k hk _ _ h => hp.digestRound ha h n (lt_eight_of_mem k hk)

/-! ### Engines that agree below their width -/

/-- Two engines of one consistent configuration whose polynomials, FINAL_XORs and sums agree below WIDTH; their tables, which
only a table engine reads, are the same. -/
structure State.SameBelow (s t : State) : Prop where
  configured : s.cfgValid = true
  consistent : s.Consistent
  cfgValid : t.cfgValid = s.cfgValid
  reflect : t.reflect = s.reflect
  byTable : t.byTable = s.byTable
  highBit : t.highBit = s.highBit
  mask : t.mask = s.mask
  lut : s.byTable = true → t.lut = s.lut
  poly : EqBelow s.width.toNat s.poly t.poly
  finalXor : EqBelow s.width.toNat s.finalXor t.finalXor
  sum : EqBelow s.width.toNat s.sum t.sum

/-- Sums that agree below WIDTH keep the agreement. -/
theorem State.SameBelow.setSum {s t : State} (h : s.SameBelow t) {v u : Byte} (hv : EqBelow s.width.toNat v u) :
    (s.setSum v).SameBelow (t.setSum u) :=
  { h with sum := hv }

/-- HIGH_BIT is one-hot at bit WIDTH - 1, which is below 8. -/
theorem State.Consistent.highBit_twoPow {s : State} (h : s.Consistent) (hc : s.cfgValid = true) :
    ∃ a < 8, s.width.toNat = a + 1 ∧ s.highBit = BitVec.twoPow 8 a := by
  obtain ⟨h1, h8, hhb, -⟩ := h hc
  exact ⟨s.width.toNat - 1, by omega, by omega, hhb.trans (ofNat_two_pow_eq_twoPow _)⟩

/-- One byte keeps the sums in agreement below WIDTH, on every path. -/
theorem State.SameBelow.digestedSum {s t : State} (h : s.SameBelow t) (b : Byte) :
    EqBelow s.width.toNat (s.digestedSum b) (t.digestedSum b) := by
  obtain ⟨-, -, -, -, htable, -⟩ := h.consistent h.configured
  obtain ⟨a, ha, hw, hhb⟩ := h.consistent.highBit_twoPow h.configured
  cases hbt : s.byTable with
  | true =>
    have hsum : s.sum = t.sum := h.sum.eq_of_le (htable.1 hbt).ge
    rw [digestedSum_table_byte hbt, digestedSum_table_byte (h.byTable.trans hbt), h.lut hbt, hsum]
    exact EqBelow.refl _ _
  | false =>
    rw [digestedSum_bitwise hbt, digestedSum_bitwise (h.byTable.trans hbt), h.highBit, h.reflect, hhb, hw]
    exact EqBelow.digestLoop ha (hw ▸ h.poly) (hw ▸ h.sum) _

/-- A byte sequence keeps the sums in agreement below WIDTH. -/
theorem State.SameBelow.sumAfter {s t : State} (h : s.SameBelow t) (bs : List Byte) :
    EqBelow s.width.toNat (s.sumAfter bs) (t.sumAfter bs) :=
  List.foldl_rel h.sum fun b _ _ _ hv => (h.setSum hv).digestedSum b

/-- Engines that agree below WIDTH read out the same checksum. -/
theorem State.SameBelow.checksum_eq {s t : State} (h : s.SameBelow t) : s.checksum = t.checksum := by
  obtain ⟨-, -, -, hmask, -⟩ := h.consistent h.configured
  obtain ⟨a, ha, hw, hhb⟩ := h.consistent.highBit_twoPow h.configured
  rw [Machine.checksum_eq, Machine.checksum_eq t, h.byTable, h.reflect, h.highBit, h.mask, hmask]
  refine EqBelow.and_mask (EqBelow.xor ?_ h.finalXor)
  split
  · rw [hhb, EqBelow.reflectBits_eq ha (hw ▸ h.sum)]
    exact EqBelow.refl _ _
  · exact h.sum

/-- Engines that agree below WIDTH answer GET_CRC alike after every byte sequence (42_digest_engine R91). -/
theorem State.SameBelow.response_eq {s t u u' c c' : State} (h : s.SameBelow t) {bs : List Byte}
    (hu : digestBytes bs s = .next u) (hu' : digestBytes bs t = .next u') (hc : exec .getCrc u = .next c)
    (hc' : exec .getCrc u' = .next c') : c.response = c'.response := by
  rw [response_getCrc_digestBytes h.configured hu hc,
    response_getCrc_digestBytes (h.cfgValid.trans h.configured) hu' hc', (h.setSum (h.sumAfter bs)).checksum_eq]

/-- CREATE from operands that agree below the width builds, from any two states, engines that agree there. -/
theorem create_sameBelow {r : Bool} {wd : BitVec 4} (legal : widthLegal wd = true) {p i x p' i' x' : Byte}
    (hp : EqBelow wd.toNat p p') (hi : EqBelow wd.toNat i i') (hx : EqBelow wd.toNat x x') {s s' t t' : State}
    (ht : exec (.create r wd p i x) s = .next t) (ht' : exec (.create r wd p' i' x') s' = .next t') :
    t.SameBelow t' := by
  by_cases h8 : wd.toNat = 8
  · obtain rfl : wd = 8 := BitVec.eq_of_toNat_eq h8
    obtain rfl := create8_next ht
    obtain rfl := create8_next ht'
    obtain rfl : p = p' := hp.eq_of_le h8.ge
    exact
      { configured := rfl, consistent := consistent_tableEngine r i x (buildTable p r) s, cfgValid := rfl, reflect := rfl
        byTable := rfl, highBit := rfl, mask := rfl, lut := fun _ => rfl
        poly := EqBelow.refl _ _, finalXor := hx, sum := hi.startingSum legal r }
  · cases (execCreate_bitwise r wd p i x s legal h8).symm.trans ht
    cases (execCreate_bitwise r wd p' i' x' s' legal h8).symm.trans ht'
    exact
      { configured := rfl, consistent := consistent_bitwiseEngine r p i x s legal h8, cfgValid := rfl, reflect := rfl
        byTable := rfl, highBit := rfl, mask := rfl, lut := nofun, poly := hp.bitwisePoly legal r, finalXor := hx
        sum := hi.startingSum legal r }

/-- A consistent engine agrees below WIDTH with itself under a sum that agrees there. -/
theorem sameBelow_with_sum {s : State} (hs : s.cfgValid = true) (hcons : s.Consistent) {v : Byte}
    (hv : EqBelow s.width.toNat s.sum v) : s.SameBelow { s with sum := v } :=
  { configured := hs, consistent := hcons, cfgValid := rfl, reflect := rfl, byTable := rfl, highBit := rfl, mask := rfl
    lut := fun _ => rfl, poly := EqBelow.refl _ _, finalXor := EqBelow.refl _ _, sum := hv }

/-- Settles O48: the engines of either clause agree below WIDTH, and so does all that follows. -/
theorem upperOperandBitsAreUnobservable : Obligations.UpperOperandBitsAreUnobservable := by
  refine ⟨fun r wd p i x p' i' x' bs s s' t t' u u' c c' h1 h8 hp hi hx ht ht' => State.SameBelow.response_eq ?_,
    fun s u u' c c' v bs hs hcons hv => State.SameBelow.response_eq ?_⟩
  · exact create_sameBelow ((widthLegal_iff wd).2 ⟨h1, h8⟩) (eqBelow_of_mod_eq hp) (eqBelow_of_mod_eq hi)
      (eqBelow_of_mod_eq hx) ht ht'
  · exact sameBelow_with_sum hs hcons (eqBelow_of_mod_eq hv.symm)

end Sys2Proof.Machine
end

section
/-! PROOFS. Errors (60_exceptions R95 to R98): a step always has a next state, an error is a response and nothing else, and
the first check of a command that fails is the one reported. -/

namespace Sys2Proof.Machine

/-! ### Every step has a next state -/

/-- Settles O14: by the host's next move, and for a transfer by whether a response waits. -/
theorem everyStepHasANextState : Obligations.EveryStepHasANextState := by
  intro s
  cases hplan : s.plan with
  | nil => exact ⟨_, step_noMove hplan⟩
  | cons m ms =>
    cases m with
    | issue w =>
      cases hresp : s.response with
      | none =>
        obtain ⟨u, r, hnext, -⟩ := executeWord_presents w (s.planned ms)
        exact ⟨_, (step_issue hplan hresp).trans hnext⟩
      | some r => exact ⟨_, step_issue_held hplan hresp⟩
    | accept =>
      cases hresp : s.response with
      | none => exact ⟨_, step_accept_held hplan hresp⟩
      | some r => exact ⟨_, step_accept hplan hresp⟩
    | pause => exact ⟨_, step_pause hplan⟩
    | powerOnReset => exact ⟨_, step_powerOn hplan⟩

/-! ### An error is a response and nothing else -/

/-- Presenting a response writes no register. -/
theorem sameRegisters_present (s : State) (r : Word) : s.sameRegisters (s.present r) := by
  simp [State.sameRegisters]

/-- A response that transfers writes no register. -/
theorem State.sameRegisters.accepted {s t : State} (h : s.sameRegisters t) (ms : List HostMove) (r : Word) :
    s.sameRegisters ((t.planned ms).accepted r) := h

/-- An engine without a waiting response is ready for the word that the host presents. -/
theorem cmdReady_of_command {s : State} {w : Word} (hcmd : s.command = some w) (hresp : s.response = none) :
    s.cmdReady = true := by
  obtain ⟨ms, hplan⟩ := (command_eq_some_iff s w).1 hcmd
  exact (cmdReady_iff s).2 ⟨by simp [State.rstN, hplan], hresp⟩

/-- Settles O28: raising is presenting the error's word, and accepting that word leaves an idle engine. -/
theorem raisingAnErrorWritesNoRegister : Obligations.RaisingAnErrorWritesNoRegister := by
  intro e s
  have hsame := sameRegisters_present s (errorWord e)
  refine ⟨s.present (errorWord e), _, raise_eq e s, hsame, rfl, ?_, fun w ms hplan => ?_⟩
  · rw [State.present_response]
    cases e <;> decide
  · have hcmd : (((s.present (errorWord e)).planned (.issue w :: ms)).accepted (errorWord e)).command = some w :=
      (command_eq_some_iff _ w).2 ⟨ms, rfl⟩
    exact ⟨_, step_accept hplan rfl, cmdReady_of_command hcmd rfl, hcmd, hsame.accepted _ _⟩

/-- A success is no error (30_encoding R59). -/
theorem isErrorWord_successWord (data : Byte) : isErrorWord (successWord data) = false :=
  successWord_err data

/-- A command whose response is an error did nothing but present it (60_exceptions R97). -/
theorem Completes.eq_present_of_error {i : Instr} {s t : State} {r : Word} (h : Completes i s t)
    (hr : t.response = some r) (herr : isErrorWord r = true) : t = s.present r := by
  cases h with
  | error e =>
    obtain rfl := Option.some.inj hr
    rfl
  | createTable | createBitwise | createT | tload | digest | reset | getCrc =>
    obtain rfl := Option.some.inj hr
    cases (isErrorWord_successWord _).symm.trans herr

/-- A word whose response is an error did nothing but present it, command or not (60_exceptions R97). -/
theorem executeWord_eq_present_of_error {w r : Word} {s t : State} (h : executeWord w s = .next t)
    (hr : t.response = some r) (herr : isErrorWord r = true) : t = s.present r := by
  obtain ⟨i, -, hi⟩ | rfl := executeWord_completes h
  · exact hi.eq_present_of_error hr herr
  · obtain rfl := Option.some.inj hr
    rfl

/-- A response presented to an idle engine and accepted leaves the host's plan and record alone changed. -/
theorem accepted_present_of_idle {s : State} (hresp : s.response = none) (r : Word) (ms ms' : List HostMove) :
    (((s.planned ms).present r).planned ms').accepted r = { s with plan := ms', observed := s.observed ++ [r] } := by
  cases s
  cases hresp
  rfl

/-- Settles O30: the word only presented its error, and accepting that response undoes the presenting. -/
theorem anErrorLeavesNoTrace : Obligations.AnErrorLeavesNoTrace := by
  intro s t w r ms hplan hresp hstep hr herr
  rw [step_issue hplan hresp] at hstep
  obtain rfl := executeWord_eq_present_of_error hstep hr herr
  rw [step_accept rfl rfl, accepted_present_of_idle hresp]

/-! ### The order of the checks -/

/-- CREATE answers success for a legal width and InvalidWidth otherwise (40_normalizer R71). -/
theorem exec_create_presents (r : Bool) (wd : BitVec 4) (p j x : Byte) (s : State) :
    ∃ u : State, exec (.create r wd p j x) s =
      .next (u.present (if 1 ≤ wd.toNat ∧ wd.toNat ≤ 8 then 0 else 0x80000200)) := by
  split
  next legal =>
    by_cases h8 : wd.toNat = 8
    · obtain rfl : wd = 8 := BitVec.eq_of_toNat_eq h8
      exact ⟨_, execCreate_table r p j x s⟩
    · exact ⟨_, execCreate_bitwise r wd p j x s ((widthLegal_iff wd).2 legal) h8⟩
  next illegal =>
    exact ⟨s, execCreate_illegal r wd p j x s (Bool.eq_false_of_not_eq_true (mt (widthLegal_iff wd).1 illegal))⟩

/-- CREATE_T answers InvalidWidth at another width, then TableIncomplete, then success (40_normalizer R72). -/
theorem exec_createT_presents (r : Bool) (wd : BitVec 4) (j x : Byte) (s : State) :
    ∃ u : State, exec (.createT r wd j x) s =
      .next (u.present (if wd.toNat ≠ 8 then 0x80000200 else if s.stageComplete = false then 0x80000400 else 0)) := by
  split
  next h8 => exact ⟨s, execCreateT_width r wd j x s h8⟩
  next h8 =>
    obtain rfl : wd = 8 := BitVec.eq_of_toNat_eq (not_not.1 h8)
    split
    next missing => exact ⟨s, execCreateT_incomplete r j x s missing⟩
    next complete => exact ⟨_, execCreateT_complete r j x s (Bool.eq_true_of_not_eq_false complete)⟩

/-- A command that needs an engine answers NotConfigured without one, before anything else (60_exceptions R96). -/
theorem presents_of_guarded {o : Host.Outcome State Fault Refusal} {s v : State} {r : Word}
    (within : s.cfgValid = true → o = .next (v.present r))
    (without : s.cfgValid = false → o = .next (s.present 0x80000300)) :
    ∃ u : State, o = .next (u.present (if s.cfgValid = true then r else 0x80000300)) := by
  cases hc : s.cfgValid with
  | true => exact ⟨v, within hc⟩
  | false => exact ⟨s, without hc⟩

/-- Settles O29: by what the word decodes to, and then by the command's own checks in their order. -/
theorem errorsAreCheckedInOrder : Obligations.ErrorsAreCheckedInOrder := by
  intro w s ms hplan hresp
  rw [step_issue hplan hresp]
  cases hw : decode w with
  | illegal why => exact ⟨_, _, executeWord_illegal hw _, rfl, rfl⟩
  | command i =>
    rw [executeWord_command hw]
    cases i with
    | reserved000 payload => exact ⟨_, _, raise_eq .illegalCommand _, rfl, errorWord_illegalCommand⟩
    | reserved111 payload => exact ⟨_, _, raise_eq .illegalCommand _, rfl, errorWord_illegalCommand⟩
    | create r wd p j x =>
      obtain ⟨u, hu⟩ := exec_create_presents r wd p j x (s.planned ms)
      exact ⟨_, _, hu, rfl, rfl⟩
    | createT r wd j x =>
      obtain ⟨u, hu⟩ := exec_createT_presents r wd j x (s.planned ms)
      refine ⟨_, _, hu, rfl, fun h8 => if_pos h8, fun h8 hmissing => ?_, fun h8 hloaded => ?_⟩
      · rw [if_neg (not_not.2 h8), if_pos ((stageComplete_eq_false_iff (s.planned ms)).2 hmissing)]
      · rw [if_neg (not_not.2 h8), (stageComplete_iff (s.planned ms)).2 hloaded]
        rfl
    | tload k v => exact ⟨_, _, execTload_eq k v _, rfl, rfl⟩
    | digest b =>
      obtain ⟨u, hu⟩ := presents_of_guarded (execDigest_configured b (s.planned ms)) (execDigest_notConfigured b _)
      exact ⟨_, _, hu, rfl, rfl⟩
    | reset =>
      obtain ⟨u, hu⟩ := presents_of_guarded (execReset_configured (s.planned ms)) (execReset_notConfigured _)
      exact ⟨_, _, hu, rfl, rfl⟩
    | getCrc =>
      obtain ⟨u, hu⟩ := presents_of_guarded (execGetCrc_configured (s.planned ms)) (execGetCrc_notConfigured _)
      exact ⟨_, _, hu, rfl, fun hc => if_neg (ne_true_of_eq_false hc)⟩

end Sys2Proof.Machine
end

section
/-! PROOFS. The handshake (70_reset_and_hazards R113), power-on reset (R109), booting an engine (R111), and runs to their
end (R116). -/

namespace Sys2Proof.Machine

/-! ### One event at the ports -/

/-- Settles O10: the presented word transfers to the idle engine, which runs the command it decodes to. -/
theorem stepRunsThePresentedCommand : Obligations.StepRunsThePresentedCommand := by
  intro s w ms i hplan hresp hw _
  rw [step_issue hplan hresp, executeWord_command hw]
  rfl

/-- Settles O12: the three ways in which nothing transfers, each by its own lemma. -/
theorem engineHoldsWithoutATransfer : Obligations.EngineHoldsWithoutATransfer :=
  fun _ _ _ _ => ⟨step_noMove, step_issue_held, step_accept_held⟩

/-- While its response waits the engine is not ready for a command (70_reset_and_hazards R113). -/
@[simp] theorem cmdReady_present (s : State) (r : Word) : (s.present r).cmdReady = false := by
  simp [State.cmdReady]

/-- A presented word transfers to a ready engine, which executes it and presents one response. -/
theorem step_of_transfer {s : State} {w : Word} (hcmd : s.command = some w) (hready : s.cmdReady = true) :
    ∃ (u : State) (r : Word), step s = .next (u.present r) ∧
      executeWord w (s.planned s.plan.tail) = .next (u.present r) ∧ u.observed = s.observed := by
  obtain ⟨ms, hplan⟩ := (command_eq_some_iff s w).1 hcmd
  obtain ⟨u, r, hnext, -, hobs⟩ := executeWord_presents w (s.planned ms)
  refine ⟨u, r, (step_issue hplan ((cmdReady_iff s).1 hready).2).trans hnext, ?_, hobs⟩
  rwa [hplan, List.tail_cons]

/-- Outside of reset the next move is no power-on reset. -/
theorem plan_ne_powerOnReset {s : State} (hrst : s.rstN = true) (ms : List HostMove) : s.plan ≠ .powerOnReset :: ms :=
  fun hplan => Bool.false_ne_true (((rstN_eq_false_iff s).2 ⟨ms, hplan⟩).symm.trans hrst)

/-- Outside of reset a step in which no command transfers changes no register (70_reset_and_hazards R113). -/
theorem sameRegisters_of_no_transfer {s t : State} (hrst : s.rstN = true)
    (hno : s.command = none ∨ s.response ≠ none) (h : step s = .next t) : s.sameRegisters t := by
  have hsame : s.sameRegisters s := by simp [State.sameRegisters]
  obtain rfl | ⟨ms, -, rfl⟩ | ⟨ms, hplan, -⟩ | ⟨ms, r, -, -, rfl⟩ | ⟨ms, w, hplan, hresp, -⟩ := step_cases h
  · exact hsame
  · exact hsame
  · exact absurd hplan (plan_ne_powerOnReset hrst ms)
  · exact hsame.accepted ms r
  · have hcmd := (command_eq_some_iff s w).2 ⟨ms, hplan⟩
    simp [hcmd, hresp] at hno

/-- A waiting response is held, and nothing observed, while the host is not ready for it (70_reset_and_hazards R113). -/
theorem response_held_of_not_rspReady {s t : State} {r : Word} (hresp : s.response = some r) (hrst : s.rstN = true)
    (hready : s.rspReady ≠ true) (h : step s = .next t) : t.response = some r ∧ t.observed = s.observed := by
  obtain rfl | ⟨ms, -, rfl⟩ | ⟨ms, hplan, -⟩ | ⟨ms, r', hplan, -, -⟩ | ⟨ms, w, -, hnone, -⟩ := step_cases h
  · exact ⟨hresp, rfl⟩
  · exact ⟨hresp, rfl⟩
  · exact absurd hplan (plan_ne_powerOnReset hrst ms)
  · exact absurd ((rspReady_iff s).2 ⟨ms, hplan⟩) hready
  · cases hnone.symm.trans hresp

/-- A waiting response transfers to a ready host, which adds it to what it observed (70_reset_and_hazards R113, R116). -/
theorem response_accepted_of_rspReady {s t : State} {r : Word} (hresp : s.response = some r) (hready : s.rspReady = true)
    (h : step s = .next t) : t.response = none ∧ t.observed = s.observed ++ [r] ∧ t.plan = s.plan.tail := by
  obtain ⟨ms, hplan⟩ := (rspReady_iff s).1 hready
  cases (step_accept hplan hresp).symm.trans h
  exact ⟨rfl, rfl, (congrArg List.tail hplan).symm⟩

/-- Settles O11: the clauses of the handshake, the held and the accepted response apart. -/
theorem handshakeTransfersInOrder : Obligations.HandshakeTransfersInOrder := by
  refine ⟨fun s hready => ?_, fun s w hcmd hready => ?_, fun s t r hresp hrst h => ?_, fun s t hcmd hrst h => ?_,
    fun s t hresp hready h => ?_⟩
  · obtain ⟨-, hresp⟩ := (cmdReady_iff s).1 hready
    exact ⟨hresp, by simp [State.rspValid, hresp]⟩
  · obtain ⟨u, r, hstep, hexec, hobs⟩ := step_of_transfer hcmd hready
    exact ⟨_, r, hstep, hexec, rfl, cmdReady_present u r, hobs⟩
  · refine ⟨sameRegisters_of_no_transfer hrst (.inr (by simp [hresp])) h, ?_⟩
    split
    next ready => exact response_accepted_of_rspReady hresp ready h
    next notReady => exact response_held_of_not_rspReady hresp hrst notReady h
  · exact sameRegisters_of_no_transfer hrst (.inl hcmd) h
  · obtain ⟨ms, hplan⟩ := (rspReady_iff s).1 hready
    cases (step_accept_held hplan hresp).symm.trans h
    rfl

/-! ### Power-on reset -/

/-- No command clears a STAGE_LOADED bit: TLOAD alone writes them, and it sets one (40_normalizer R73). -/
theorem Completes.stageLoaded_mono {i : Instr} {s t : State} (h : Completes i s t) {k : Byte}
    (hk : entry s.stageLoaded k = true) : entry t.stageLoaded k = true := by
  cases h with
  | tload j v =>
    by_cases hkj : k = j
    · subst hkj
      simp
    · simpa [entry_setEntry_other, hkj] using hk
  | error | createTable | createBitwise | createT | digest | reset | getCrc => exact hk

/-- No word clears a STAGE_LOADED bit. -/
theorem executeWord_stageLoaded_mono {w : Word} {s t : State} (h : executeWord w s = .next t) {k : Byte}
    (hk : entry s.stageLoaded k = true) : entry t.stageLoaded k = true := by
  obtain ⟨i, -, hi⟩ | rfl := executeWord_completes h
  · exact hi.stageLoaded_mono hk
  · exact hk

/-- Outside of reset no step clears a STAGE_LOADED bit (70_reset_and_hazards R109). -/
theorem step_stageLoaded_mono {s t : State} (hrst : s.rstN = true) (h : step s = .next t) {k : Byte}
    (hk : entry s.stageLoaded k = true) : entry t.stageLoaded k = true := by
  obtain rfl | ⟨ms, -, rfl⟩ | ⟨ms, hplan, -⟩ | ⟨ms, r, -, -, rfl⟩ | ⟨ms, w, -, -, hw⟩ := step_cases h
  · exact hk
  · exact hk
  · exact absurd hplan (plan_ne_powerOnReset hrst ms)
  · exact hk
  · exact executeWord_stageLoaded_mono hw hk

/-- Outside of reset no step clears CFG_VALID (70_reset_and_hazards R109). -/
theorem step_cfgValid_mono {s t : State} (hrst : s.rstN = true) (h : step s = .next t) (hs : s.cfgValid = true) :
    t.cfgValid = true :=
  Bool.eq_true_of_not_eq_false fun ht =>
    Bool.false_ne_true ((rstN_of_step_clears_cfgValid h hs ht).symm.trans hrst)

/-- Settles O17: in reset the ports are 0 and the step leaves reset's flags; no other step clears a flag. -/
theorem powerOnResetAloneClearsTheFlags : Obligations.PowerOnResetAloneClearsTheFlags := by
  refine ⟨fun s hrst => ?_, fun s t hrst h => ⟨step_cfgValid_mono hrst h, fun _ => step_stageLoaded_mono hrst h⟩⟩
  obtain ⟨ms, hplan⟩ := (rstN_eq_false_iff s).1 hrst
  exact ⟨by simp [State.cmdReady, hrst], by simp [State.rspValid, hrst], _, step_powerOn hplan, rfl,
    entry_reset_stageLoaded, rfl, (congrArg List.tail hplan).symm⟩

/-! ### Booting an engine -/

/-- TLOADs write no CFG_VALID (10_state R18). -/
@[simp] theorem State.stageAll_cfgValid (loads : List (Byte × Byte)) :
    ∀ s : State, (s.stageAll loads).cfgValid = s.cfgValid := by
  induction loads with
  | nil => exact fun _ => rfl
  | cons e loads ih => exact fun s => ih _

/-- CREATE of a legal width succeeds from any state and leaves an engine (40_normalizer R71). -/
theorem create_boots (r : Bool) {wd : BitVec 4} (p i x : Byte) (s : State) (h1 : 1 ≤ wd.toNat) (h8 : wd.toNat ≤ 8) :
    ∃ t, exec (.create r wd p i x) s = .next t ∧ t.response = some 0 ∧ t.cfgValid = true := by
  obtain ⟨u, hu⟩ := exec_create_presents r wd p i x s
  rw [if_pos ⟨h1, h8⟩] at hu
  exact ⟨_, hu, rfl, cfgValid_of_construction (.inl hu) rfl⟩

/-- TLOADs of every index complete the staged table, in any order and from any state (40_normalizer R72). -/
theorem stageComplete_stageAll {loads : List (Byte × Byte)} (hall : ∀ k : Byte, ∃ v, (k, v) ∈ loads) (s : State) :
    (s.stageAll loads).stageComplete = true :=
  (stageComplete_iff _).2 fun k => (entry_stageLoaded_stageAll loads k s).2 (.inr (hall k))

/-- From reset, TLOADs that leave out an index leave the staged table incomplete (10_state R33, 40_normalizer R72). -/
theorem stageComplete_stageAll_reset_of_missing {loads : List (Byte × Byte)} {k : Byte} (hk : ∀ v, (k, v) ∉ loads) :
    (State.reset.stageAll loads).stageComplete = false := by
  refine (stageComplete_eq_false_iff _).2 ⟨k, Bool.eq_false_of_not_eq_true fun hloaded => ?_⟩
  obtain hreset | ⟨v, hv⟩ := (entry_stageLoaded_stageAll loads k State.reset).1 hloaded
  · simp at hreset
  · exact hk v hv

/-- TLOADs of every index, then CREATE_T of width 8: success and an engine, from any state (70_reset_and_hazards R111). -/
theorem tloads_createT_boots {loads : List (Byte × Byte)} (r : Bool) (i x : Byte) (s : State)
    (hall : ∀ k : Byte, ∃ v, (k, v) ∈ loads) :
    ∃ t, executeAll (loads.map (fun e => .tload e.1 e.2) ++ [.createT r 8 i x]) s = .next t ∧
      t.response = some 0 ∧ t.cfgValid = true := by
  have hcreate : exec (.createT r 8 i x) (s.stageAll loads) = _ :=
    execCreateT_complete r i x _ (stageComplete_stageAll hall s)
  rw [executeAll_tloads_append, executeAll_cons hcreate]
  exact ⟨_, rfl, rfl, rfl⟩

/-- Settles O36: the two ways to boot, and the errors of TLOADs that leave out an index. -/
theorem bootBuildsAnEngine : Obligations.BootBuildsAnEngine := by
  refine ⟨fun r wd p i x s => create_boots r p i x s, fun loads r i x s => tloads_createT_boots r i x s,
    fun loads k b r i x hk => ?_⟩
  have hrun := executeAll_tloads_append loads [] State.reset
  rw [List.append_nil] at hrun
  exact ⟨_, _, hrun, execCreateT_incomplete r i x _ (stageComplete_stageAll_reset_of_missing hk),
    execDigest_notConfigured b _ (State.stageAll_cfgValid loads State.reset), rfl⟩

/-! ### Runs to their end -/

/-- A host that only accepts and pauses issues nothing. -/
theorem commandsLeft_of_accept_or_pause {ms : List HostMove} (h : ∀ m ∈ ms, m = .accept ∨ m = .pause) :
    commandsLeft ms = [] := by
  induction ms with
  | nil => rfl
  | cons m ms ih =>
    obtain ⟨rfl | rfl, hms⟩ := List.forall_mem_cons.1 h
    · exact ih hms
    · exact ih hms

/-- Moves that issue nothing before the next power-on reset leave no command of the run (70_reset_and_hazards R116). -/
theorem commandsLeft_of_last {rest after : List HostMove} (hrest : ∀ m ∈ rest, m = .accept ∨ m = .pause)
    (hafter : after = [] ∨ after.head? = some .powerOnReset) : commandsLeft (rest ++ after) = [] := by
  have hno : HostMove.powerOnReset ∉ rest := fun hm => by simpa using hrest _ hm
  rw [commandsLeft_append hno, commandsLeft_of_accept_or_pause hrest, List.nil_append]
  obtain rfl | hhead := hafter
  · rfl
  · obtain ⟨ms, rfl⟩ := List.head?_eq_some_iff.1 hhead
    rfl

/-- A run has not ended while a response waits. -/
theorem runEnded_eq_false_of_response {s : State} {r : Word} (hresp : s.response = some r) : s.runEnded = false := by
  simp [State.runEnded, hresp]

/-- A run has not ended while a command is left to issue before the next power-on reset. -/
theorem runEnded_eq_false_of_issue {s : State} {w : Word} {before after : List HostMove}
    (hno : ∀ m ∈ before, m ≠ .powerOnReset) (hplan : s.plan = before ++ .issue w :: after) : s.runEnded = false := by
  have hleft : commandsLeft s.plan = commandsLeft before ++ w :: commandsLeft after := by
    rw [hplan, commandsLeft_append fun hm => hno _ hm rfl, commandsLeft_issue]
  simp [State.runEnded, hleft]

/-- An ended run stays ended with the same observation until power-on reset, as neither a command nor a response
transfers. -/
theorem runEnded_step {s t : State} (hend : s.runEnded = true) (hrst : s.rstN = true) (h : step s = .next t) :
    t.runEnded = true ∧ t.observed = s.observed := by
  obtain ⟨hleft, hresp⟩ := (runEnded_iff s).1 hend
  obtain rfl | ⟨ms, hplan, rfl⟩ | ⟨ms, hplan, -⟩ | ⟨ms, r, -, hsome, -⟩ | ⟨ms, w, hplan, -, -⟩ := step_cases h
  · exact ⟨hend, rfl⟩
  · rw [hplan, commandsLeft_pause] at hleft
    exact ⟨(runEnded_iff _).2 ⟨hleft, hresp⟩, rfl⟩
  · exact absurd hplan (plan_ne_powerOnReset hrst ms)
  · cases hresp.symm.trans hsome
  · simp [hplan] at hleft

/-- Settles O53: the response to the last command is accepted with no command left; the other clauses by their lemmas. -/
theorem runEndsWhenTheLastResponseIsAccepted : Obligations.RunEndsWhenTheLastResponseIsAccepted := by
  refine ⟨fun _ _ => runEnded_eq_false_of_response, fun _ _ _ _ => runEnded_eq_false_of_issue,
    fun s r rest after hrest hplan hafter hresp => ?_, fun _ _ => runEnded_step, fun s => List.any_eq_true⟩
  exact ⟨_, step_accept hplan hresp, (runEnded_iff _).2 ⟨commandsLeft_of_last hrest hafter, rfl⟩, rfl⟩

/-- One word of a program takes two steps: it transfers to the idle engine, and the host accepts its one response, which
leaves the engine idle again (70_reset_and_hazards R113). -/
theorem run_issue_accept {s : State} {w : Word} {ms : List HostMove} (hplan : s.plan = .issue w :: .accept :: ms)
    (hresp : s.response = none) :
    ∃ (t : State) (r : Word), (∀ n, core.run (n + 2) s = core.run n t) ∧
      t.plan = ms ∧ t.response = none ∧ t.observed = s.observed ++ [r] := by
  obtain ⟨u, r, hexec, huplan, huobs⟩ := executeWord_presents w (s.planned (.accept :: ms))
  have hissue := (step_issue hplan hresp).trans hexec
  have haccept : step (u.present r) = .next (((u.present r).planned ms).accepted r) := step_accept huplan rfl
  exact ⟨_, r, fun n => (run_succ hissue (n + 1)).trans (run_succ haccept n), rfl, rfl, congrArg (· ++ [r]) huobs⟩

/-- An idle engine answers each word of a program and is idle with no move left, by induction on the program. -/
theorem run_programMoves (ws : List Word) :
    ∀ {s : State}, s.plan = programMoves ws → s.response = none →
      ∃ t rs, core.run (2 * ws.length) s = .next t ∧
        t.plan = [] ∧ t.response = none ∧ t.observed = s.observed ++ rs ∧ rs.length = ws.length := by
  induction ws with
  | nil => exact fun {s} hplan hresp => ⟨s, [], rfl, hplan, hresp, (List.append_nil _).symm, rfl⟩
  | cons w ws ih =>
    intro s hplan hresp
    obtain ⟨u, r, hrun, huplan, huresp, huobs⟩ := run_issue_accept hplan hresp
    obtain ⟨t, rs, hnext, htplan, htresp, htobs, hlen⟩ := ih huplan huresp
    refine ⟨t, r :: rs, (hrun (2 * ws.length)).trans hnext, htplan, htresp, ?_, congrArg (· + 1) hlen⟩
    rw [htobs, huobs, List.append_assoc, List.singleton_append]

/-- Settles O15: the program runs to an idle engine with no move left, which is the end of the run. -/
theorem everyProgramRunsToItsEnd : Obligations.EveryProgramRunsToItsEnd := by
  intro s ws hresp
  obtain ⟨t, rs, hrun, hplan, htresp, hobs, hlen⟩ :=
    run_programMoves ws (s := s.planned (programMoves ws)) rfl hresp
  exact ⟨t, rs, hrun, hplan, (runEnded_iff t).2 ⟨congrArg commandsLeft hplan, htresp⟩, hobs, hlen⟩

end Sys2Proof.Machine
end
